-- ==== Sys2Proof/Word.lean ====
section
/-! DEFINITION. The words GIFASM moves: bytes to the sink, 16-bit fields, 32-bit bus words (R8, R68) and
12-bit byte offsets of the host window (R60). -/

namespace Sys2Proof

/-- One byte of the output stream, of a palette component or of the sub-block buffer. -/
abbrev Byte := BitVec 8

/-- A 16-bit field (R7): bounds, delay, loop count. -/
abbrev Half := BitVec 16

/-- A word of the host bus (R8, R61). -/
abbrev Word := BitVec 32

/-- A byte offset in the 4096-byte host window (R60, R62): nothing outside the window can be written down. -/
abbrev Offset := BitVec 12

end Sys2Proof
end

