-- ==== Sys2Proof/Syntax.lean ====
section
/-! DEFINITION. What can be said to GIFASM: the nine commands (opcode_table.json, R82), the fields of a command word
(R80), the host's bus accesses (R61), the moves of the agents outside, and the host's program lines (R97, R98). -/

namespace Sys2Proof

/-- The nine commands of the opcode map (R82), one constructor per row of opcode_table.json. Only PUSH carries an
operand in its word (R83). -/
inductive Instr where
  | nop
  | start
  | header
  | loopext
  | frame
  | push (imm : Byte)
  | frameEnd
  | trailer
  | abort
deriving DecidableEq, Repr

/-- The three fields of a command word (R80). -/
structure CmdFields where
  op : BitVec 8
  imm : BitVec 8
  rsv : BitVec 16
deriving DecidableEq, Repr

/-- The width of a host access. Only 32 bits has a meaning (R61). -/
inductive Width where
  | bits8
  | bits16
  | bits32
deriving DecidableEq, Repr

/-- One host bus access: MemRead(offset) or MemWrite(offset, value) of R61. -/
inductive Access where
  | read (off : Offset) (width : Width)
  | write (off : Offset) (width : Width) (value : Word)
deriving DecidableEq, Repr

/-- What happens next at GIFASM's boundary (R6, R98, R99, R250). The order of these moves is plain data (log 2). -/
inductive Move where
  /-- the host makes one bus access (R61) -/
  | access (a : Access)
  /-- the host polls STATUS until BUSY = 0 (WAIT, R98) -/
  | wait
  /-- the host does nothing; the block offers its pending byte again, if it has one (R66) -/
  | turn
  /-- reset is asserted (R250, R251) -/
  | reset
  /-- the host reads STATUS and, if PHASE = ERROR, stops: it makes no further move of its call (R99, log 9) -/
  | checkError
  /-- the host reads INFO and forwards the external compressor's bytes for the code size INFO[3:0]; entry m holds those
  for code size m (R99, R161) -/
  | compressed (byCodeSize : Vector (List Byte) 16)
  /-- the host's call returns (R99): where `checkError` stops -/
  | callEnd
deriving DecidableEq, Repr

/-- The registers of the host window by name (R33). -/
inductive Reg where
  | cmd
  | status
  | frameCount
  | delayCount
  | loopCount
  | palLen
  | frameMin
  | frameMax
  | delay
  | trans
  | info
  | loopNorm
  | framesDone
  | sbFill
  | pal (i : Fin 256)
deriving DecidableEq, Repr

/-- A line of a host program (R97) or a pseudo-instruction (R98). Operands that the notation writes as numbers are
numbers here; WellFormed says which of them fit. -/
inductive HostLine where
  | wr (r : Reg) (value : Nat)
  | rd (r : Reg)
  | command (i : Instr)
  | wait
  | data (bytes : List Byte)
  | setFrame (minx miny maxx maxy d : Nat)
  | beginStream (frames delays loop n : Nat)
  | encode1 (n minx miny maxx maxy d : Nat) (bytes : List Byte)
deriving DecidableEq, Repr

end Sys2Proof
end

