-- ==== Sys2Proof/Decode.lean ====
section
/-! DEFINITION. The decoder of command words, total on all 2^32 words and rejecting by name (R80 to R84), the encoder
written from the same table (R82), and the host's question in the numbering of opcode_table.json. -/

namespace Sys2Proof

/-- Why a word does not decode (R81, R84), in the order R81's pseudocode checks. -/
inductive Illegal where
  /-- the opcode is one of 0x09 to 0xFF -/
  | reservedOpcode
  /-- bits [31:16] are not 0 -/
  | nonzeroReserved
  /-- bits [15:8] are not 0 and the opcode is not PUSH -/
  | nonzeroImmediate
deriving DecidableEq, Repr

/-- The fields of a command word (R80). -/
def fieldsOf (w : Word) : CmdFields :=
  { op := w.extractLsb' 0 8, imm := w.extractLsb' 8 8, rsv := w.extractLsb' 16 16 }

/-- The command an opcode stands for (R82), with the word's IMM8 for PUSH (R83). -/
def ofOpcode (op : Nat) (imm : Byte) : Option Instr :=
  match op with
  | 0x00 => some .nop
  | 0x01 => some .start
  | 0x02 => some .header
  | 0x03 => some .loopext
  | 0x04 => some .frame
  | 0x05 => some (.push imm)
  | 0x06 => some .frameEnd
  | 0x07 => some .trailer
  | 0x08 => some .abort
  | _ => none

/-- decode(w) of R81. -/
def decode (w : Word) : Except Illegal Instr :=
  match ofOpcode (fieldsOf w).op.toNat (fieldsOf w).imm with
  | none => .error .reservedOpcode
  | some i =>
    if (fieldsOf w).rsv ≠ 0 then .error .nonzeroReserved
    else if (fieldsOf w).op ≠ 5 ∧ (fieldsOf w).imm ≠ 0 then .error .nonzeroImmediate
    else .ok i

/-- The opcode of a command (R82). -/
def opcode : Instr → BitVec 8
  | .nop => 0x00
  | .start => 0x01
  | .header => 0x02
  | .loopext => 0x03
  | .frame => 0x04
  | .push _ => 0x05
  | .frameEnd => 0x06
  | .trailer => 0x07
  | .abort => 0x08

/-- The IMM8 field of a command's word (R80): the byte of PUSH, 0 for every other command. -/
def immOf : Instr → Byte
  | .nop => 0
  | .start => 0
  | .header => 0
  | .loopext => 0
  | .frame => 0
  | .push imm => imm
  | .frameEnd => 0
  | .trailer => 0
  | .abort => 0

/-- The command word of a command: RSV ++ IMM8 ++ OP (R80, R97). -/
def encode (i : Instr) : Word :=
  (0 : BitVec 16) ++ (immOf i ++ opcode i)

/-- What the decoder reads from a word of the opcode table: bit 0 of `w` is bit 0 of the command word, and a row is
32 bits (R85). A row of fewer bits has zeros above them; one that does not fit 32 bits is refused. -/
def decodeTableWord (nbits w : Nat) : Option Instr :=
  if nbits ≤ 32 ∧ w < 2 ^ nbits then
    match decode (BitVec.ofNat 32 w) with
    | .ok i => some i
    | .error _ => none
  else none

end Sys2Proof
end

