-- ==== Sys2Proof/Config.lean ====
section
/-! DEFINITION. The fixed parameters of R7 and R8. The two open parameters of R9 are not constants: SINK is plain
data in State (log 1), and PAL_INIT is "no value" (log 5). -/

namespace Sys2Proof.Config

/-- Entries of the palette RAM (R8, R40). -/
abbrev paletteEntries : Nat := 256

/-- Window offset of PAL[0] (R33). -/
abbrev paletteBase : Nat := 0x400

/-- First window offset after the palette RAM (R33). -/
abbrev paletteEnd : Nat := 0x800

/-- Bytes of the sub-block buffer, and the most payload bytes of one sub-block (R7, R8). -/
abbrev subBlockMax : Nat := 255

/-- The palette lengths START admits: the powers of two in [2, 256] (R7, R38). -/
abbrev paletteLengths : List Word := [2, 4, 8, 16, 32, 64, 128, 256]

end Sys2Proof.Config
end

