-- ==== Sys2Proof/Machine/State.lean ====
section
/-! DEFINITION. GIFASM's state as plain data (10_state.md), its reset value (R48, R250), and the reasons a step can
stop (R230). The agents outside the block (host, sink) stand in the state as lists of what they will do (log 1, log 2). -/

namespace Sys2Proof.Machine

/-- PHASE (R21), in the order of its codes 0 to 7. -/
inductive Phase where
  | idle
  | hdr
  | loop
  | frm
  | data
  | trl
  | done
  | error
deriving DecidableEq, Repr

/-- ERR (R23): no error, then the six error kinds of R220 in the order of their codes 1 to 6. Codes 7 to 15 are never
raised (R220), so no constructor stands for them. -/
inductive ErrKind where
  | noError
  | frameDelayCountMismatch
  | emptyAnimation
  | writeFailure
  | illegalCommand
  | sequenceError
  | paletteLengthError
deriving DecidableEq, Repr

/-- The sink's answer to an offered byte (R66). -/
inductive SinkAnswer where
  | accept
  | stall
  | fail
deriving DecidableEq, Repr

/-- The parameter SINK (R9, R66) as plain data: the sink's next answers, oldest first, and the answer it gives to every
offer after those (log 1). -/
structure Sink where
  script : List SinkAnswer
  rest : SinkAnswer
deriving DecidableEq, Repr

/-- One step of a running command (R13): an Emit or a state write. A command that a stall has cut is held as the list of
the steps still to do (R66, R264). -/
inductive CmdStep where
  /-- Emit(b), R66 -/
  | emit (b : Byte)
  /-- the transparency scan of palette entry i with value e (R124), after its three bytes -/
  | scan (i : Nat) (e : Word)
  /-- HEADER has come to palette entry i, which the host never wrote since reset (R121) -/
  | unwritten (i : Nat)
  /-- PHASE <- p -/
  | setPhase (p : Phase)
  /-- SB_CNT <- 0 -/
  | clearFill
  /-- the last two lines of FRAME_END (R156): count the frame, choose the phase -/
  | endFrame
deriving DecidableEq, Repr

/-- The palette RAM (R40, R60) as bytes by window offset, offsets strictly rising; a byte that is not listed has no
value (log 4, log 5). -/
abbrev Memory := List Host.Cell

structure State where
  /-- PHASE, R21 -/
  phase : Phase
  /-- BUSY, R22 -/
  busy : Bool
  /-- ERR, R23 -/
  err : ErrKind
  /-- TMULTI, R24 -/
  tmulti : Bool
  /-- FC_L, R25 -/
  fcL : Word
  /-- LOOP_L, R26 -/
  loopL : Half
  /-- PAL_K, R27 -/
  palK : BitVec 4
  /-- MCS, R28 -/
  mcs : BitVec 4
  /-- TFLAG, R29 -/
  tflag : Bool
  /-- TIDX, R29 -/
  tidx : Byte
  /-- FRAMES_DONE, R31 -/
  framesDone : Word
  /-- SB_BUF, R32 -/
  sbBuf : Vector Byte 255
  /-- SB_CNT, R32 -/
  sbCnt : BitVec 8
  /-- FRAME_COUNT, R36 -/
  frameCount : Word
  /-- DELAY_COUNT, R36 -/
  delayCount : Word
  /-- LOOP_COUNT, R37 -/
  loopCount : Word
  /-- PAL_LEN, R38 -/
  palLen : Word
  /-- FRAME_MIN, R39 -/
  frameMin : Word
  /-- FRAME_MAX, R39 -/
  frameMax : Word
  /-- DELAY[15:0], R41 -/
  delay : Half
  /-- PAL[0..255] with the written bits, R40 -/
  palette : Memory
  /-- the steps a stalled command has still to do, the byte on offer first (R66, R264) -/
  pending : List CmdStep
  /-- the output stream, R65 -/
  out : List Byte
  /-- the sink's answers to come, R66 -/
  sink : Sink
  /-- the words host reads have returned, oldest first (R61) -/
  reads : List Word
  /-- the moves to come at the block's boundary, the next one first (R70) -/
  agenda : List Move
deriving DecidableEq, Repr

/-- The model faults of R230: situations to which the spec gives no hardware meaning. All three are safe: the model stops
where the hardware would go on in some unspecified way. -/
inductive Fault where
  /-- raised by a host access that is not 32 bits wide at a multiple of 4 (R61); safe -/
  | busAccess
  /-- raised by a host write, or a command, while BUSY = 1 (R200, R261); safe -/
  | hazard
  /-- raised by HEADER or a host read that comes to a palette entry never written since reset (R40, R121); safe -/
  | unwrittenPalette
deriving DecidableEq, Repr

/-- No instruction of GIFASM is refused; the constructor is the host interface's. -/
inductive Refusal where
  /-- raised by no arm of this model: an instruction not modelled yet would answer it; safe -/
  | notModelled (mnemonic : String)
deriving DecidableEq, Repr

/-- The outcome of a step or of a command. -/
abbrev Result := Host.Outcome State Fault Refusal

/-- The machine right after reset (R48, R250): every register and latch 0, PHASE = IDLE, no palette entry written. The
spec gives SB_BUF no value; the zeros are log 3. `sink` and `agenda` are the outside agents (log 1, log 2). -/
def State.reset : State :=
  { phase := .idle, busy := false, err := .noError, tmulti := false
    fcL := 0, loopL := 0, palK := 0, mcs := 0, tflag := false, tidx := 0, framesDone := 0
    sbBuf := Vector.replicate 255 0, sbCnt := 0
    frameCount := 0, delayCount := 0, loopCount := 0, palLen := 0
    frameMin := 0, frameMax := 0, delay := 0
    palette := [], pending := [], out := []
    sink := { script := [], rest := .accept }, reads := [], agenda := [] }

end Sys2Proof.Machine
end

