-- ==== Sys2Proof/Machine/Operands.lean ====
section
/-! DEFINITION. The operands of the commands (R83): fields of registers, the arithmetic of R11, the checks and latches of
START, the bytes of an entry, and the byte order of a 16-bit field (R67). -/

namespace Sys2Proof.Machine

/-- lo8(v) = v[7:0] (R11). -/
def lo8 (v : Half) : Byte := v.extractLsb' 0 8

/-- hi8(v) = v[15:8] (R11). -/
def hi8 (v : Half) : Byte := v.extractLsb' 8 8

/-- The bytes of Emit16(v), low byte first (R12, R67). -/
def le16 (v : Half) : List Byte := [lo8 v, hi8 v]

/-- reg[15:0] (R83). -/
def lowHalf (v : Word) : Half := v.extractLsb' 0 16

/-- reg[31:16] (R83). -/
def highHalf (v : Word) : Half := v.extractLsb' 16 16

/-- MINX (R39). -/
def State.minX (s : State) : Half := lowHalf s.frameMin
/-- MINY (R39). -/
def State.minY (s : State) : Half := highHalf s.frameMin
/-- MAXX, the canvas width at HEADER (R39, R122). -/
def State.maxX (s : State) : Half := lowHalf s.frameMax
/-- MAXY, the canvas height at HEADER (R39, R122). -/
def State.maxY (s : State) : Half := highHalf s.frameMax

/-- (MAXX - MINX) mod 2^16 (R153). -/
def State.frameWidth (s : State) : Half := s.maxX - s.minX
/-- (MAXY - MINY) mod 2^16 (R153). -/
def State.frameHeight (s : State) : Half := s.maxY - s.minY

/-- The smallest k from `k` on with 2^k >= n, looking at most `fuel` values further. -/
def clog2From (fuel k n : Nat) : Nat :=
  match fuel with
  | 0 => k
  | fuel + 1 => if n ≤ 2 ^ k then k else clog2From fuel (k + 1) n

/-- clog2(n): the smallest integer k with 2^k >= n (R11), for n up to 2^64. -/
def clog2 (n : Nat) : Nat := clog2From 64 0 n

/-- log2(n) of a power of two n (R11): there the ceiling is exact (90_conflicts.md C7). -/
def log2 (n : Nat) : Nat := clog2 n

/-- START admits the palette length n (R38, R190). -/
def legalPaletteLength (n : Word) : Bool := Config.paletteLengths.contains n

/-- normalise(v) of R191: 0 for a negative LOOP_COUNT, its low 16 bits otherwise. -/
def normaliseLoop (v : Word) : Half := if v.msb then 0 else lowHalf v

/-- PAL_K as START latches it: log2 of the palette length, in 4 bits (R27, R190). -/
def latchedPalK (n : Word) : BitVec 4 := BitVec.ofNat 4 (log2 n.toNat)

/-- MCS as START computes it: clog2(N + 2), in 4 bits (R28, R152). -/
def latchedMcs (n : Word) : BitVec 4 := BitVec.ofNat 4 (clog2 (n.toNat + 2))

/-- N = 1 << PAL_K, the palette length HEADER works with (R120). -/
def State.paletteLength (s : State) : Nat := 2 ^ s.palK.toNat

/-- R of a palette entry (R40). -/
def red (e : Word) : Byte := e.extractLsb' 0 8
/-- G of a palette entry (R40). -/
def green (e : Word) : Byte := e.extractLsb' 8 8
/-- B of a palette entry (R40). -/
def blue (e : Word) : Byte := e.extractLsb' 16 8
/-- A of a palette entry (R40). -/
def alpha (e : Word) : Byte := e.extractLsb' 24 8

end Sys2Proof.Machine
end

