-- ==== Sys2Proof/Machine/Flags.lean ====
section
/-! DEFINITION. The flags (R47): the transparency scan that sets TFLAG, TIDX and TMULTI (R124), and the words in which
software sees flags and latches (R35, R42 to R46). -/

namespace Sys2Proof.Machine

/-- An entry is non-opaque when its alpha byte is not 0xFF (R40, R124). -/
def nonOpaque (e : Word) : Bool := alpha e != 0xFF

/-- The scan of palette entry i with value e (R124): the first non-opaque entry sets TFLAG and TIDX, each further one
sets TMULTI. -/
def State.scanEntry (s : State) (i : Nat) (e : Word) : State :=
  { s with
    tflag := s.tflag || nonOpaque e
    tidx := if nonOpaque e && !s.tflag then BitVec.ofNat 8 i else s.tidx
    tmulti := s.tmulti || (nonOpaque e && s.tflag) }

/-- The code of a phase (R21). -/
def Phase.code : Phase → BitVec 3
  | .idle => 0
  | .hdr => 1
  | .loop => 2
  | .frm => 3
  | .data => 4
  | .trl => 5
  | .done => 6
  | .error => 7

/-- The code of an error kind (R220). -/
def ErrKind.code : ErrKind → BitVec 4
  | .noError => 0
  | .frameDelayCountMismatch => 1
  | .emptyAnimation => 2
  | .writeFailure => 3
  | .illegalCommand => 4
  | .sequenceError => 5
  | .paletteLengthError => 6

/-- STATUS: PHASE [2:0], BUSY [3], ERR [7:4], TMULTI [8] (R35). -/
def State.statusWord (s : State) : Word :=
  (0 : BitVec 23) ++ (BitVec.ofBool s.tmulti ++ (s.err.code ++ (BitVec.ofBool s.busy ++ s.phase.code)))

/-- TRANS: TIDX [7:0], TFLAG [8] (R42). -/
def State.transWord (s : State) : Word := (0 : BitVec 23) ++ (BitVec.ofBool s.tflag ++ s.tidx)

/-- INFO: MCS [3:0], PAL_K [7:4] (R43). -/
def State.infoWord (s : State) : Word := (0 : BitVec 24) ++ (s.palK ++ s.mcs)

/-- LOOP_NORM: LOOP_L [15:0] (R44). -/
def State.loopNormWord (s : State) : Word := (0 : BitVec 16) ++ s.loopL

/-- SB_FILL: SB_CNT [7:0] (R46). -/
def State.sbFillWord (s : State) : Word := (0 : BitVec 24) ++ s.sbCnt

/-- DELAY as it reads back: bits [31:16] are reserved (R41). -/
def State.delayWord (s : State) : Word := (0 : BitVec 16) ++ s.delay

end Sys2Proof.Machine
end

