-- ==== Sys2Proof/Machine/Ops.lean ====
section
/-! DEFINITION. The shared operations over the state: the palette RAM, the sink, error entry and the return from it,
Emit and the running of a command's steps, command acceptance, the block's turn, and reset. -/

namespace Sys2Proof.Machine

/-! ## The palette RAM (R40, R60) -/

/-- The byte at window offset a, if one was written since reset. -/
def Memory.readByte (m : Memory) (a : Nat) : Option Byte :=
  match m with
  | [] => none
  | (k, b) :: rest => if k = a then some b else Memory.readByte rest a

/-- Write one byte, keeping offsets strictly rising. -/
def Memory.writeByte (m : Memory) (a : Nat) (b : Byte) : Memory :=
  match m with
  | [] => [(a, b)]
  | (k, c) :: rest =>
    if a < k then (a, b) :: (k, c) :: rest
    else if a = k then (a, b) :: rest
    else (k, c) :: Memory.writeByte rest a b

/-- The canonical form: offsets strictly rising, so that equal memories are equal lists. An unlisted byte has no value,
so no listed one can equal it. -/
abbrev Memory.wf (m : Memory) : Prop := m.Pairwise (fun x y => x.1 < y.1)

/-- The window offset of PAL[i] (R33). -/
def entryOffset (i : Nat) : Nat := Config.paletteBase + 4 * i

/-- PAL[i] as a word, if it was written since reset: A ++ B ++ G ++ R (R40; the order of the four bytes is log 4). -/
def Memory.readEntry (m : Memory) (i : Nat) : Option Word :=
  match m.readByte (entryOffset i), m.readByte (entryOffset i + 1), m.readByte (entryOffset i + 2),
    m.readByte (entryOffset i + 3) with
  | some r, some g, some b, some a => some (a ++ (b ++ (g ++ r)))
  | _, _, _, _ => none

/-- PAL[i] <- e; written[i] <- 1 (R61). -/
def Memory.writeEntry (m : Memory) (i : Nat) (e : Word) : Memory :=
  (((m.writeByte (entryOffset i) (red e)).writeByte (entryOffset i + 1) (green e)).writeByte
    (entryOffset i + 2) (blue e)).writeByte (entryOffset i + 3) (alpha e)

/-- written[i] (R40). -/
def Memory.written (m : Memory) (i : Nat) : Bool := (m.readEntry i).isSome

/-! ## The sink (R66) -/

/-- The answer to the byte offered now. -/
def Sink.answer (k : Sink) : SinkAnswer :=
  match k.script with
  | [] => k.rest
  | a :: _ => a

/-- The sink once it has answered. -/
def Sink.next (k : Sink) : Sink := { k with script := k.script.tail }

/-- The sink has answered the byte on offer. -/
def State.answered (s : State) : State := { s with sink := s.sink.next }

/-- out <- out ++ [b] (R66). -/
def State.append (s : State) (b : Byte) : State := { s with out := s.out ++ [b] }

/-! ## State writes of the commands -/

/-- BUSY <- 1 (R200). -/
def State.beginCommand (s : State) : State := { s with busy := true }

/-- BUSY <- 0 (R200). -/
def State.endCommand (s : State) : State := { s with busy := false }

/-- The command is cut at a stall: BUSY stays 1, and the rest of it waits (R66, R264). -/
def State.suspend (s : State) (rest : List CmdStep) : State := { s with busy := true, pending := rest }

/-- The block takes up the rest of a cut command. -/
def State.takeUp (s : State) : State := { s with pending := [] }

/-- PHASE <- p. -/
def State.setPhase (s : State) (p : Phase) : State := { s with phase := p }

/-- SB_CNT <- 0. -/
def State.clearFill (s : State) : State := { s with sbCnt := 0 }

/-- SB_BUF[SB_CNT] <- b; SB_CNT <- SB_CNT + 1 (R170). Outside the buffer nothing is stored (log 6). -/
def State.bufferByte (s : State) (b : Byte) : State :=
  { s with sbBuf := s.sbBuf.setIfInBounds s.sbCnt.toNat b, sbCnt := s.sbCnt + 1 }

/-- FRAMES_DONE <- FRAMES_DONE + 1, then FRM while frames remain and TRL after the last (R156, R157). -/
def State.countFrame (s : State) : State :=
  { s with
    framesDone := s.framesDone + 1
    phase := if s.framesDone + 1 < s.fcL then .frm else .trl }

/-- The latches START writes when its checks pass, and PHASE <- HDR (R190). -/
def State.openStream (s : State) : State :=
  { s with
    fcL := s.frameCount
    loopL := normaliseLoop s.loopCount
    palK := latchedPalK s.palLen
    mcs := latchedMcs s.palLen
    tflag := false
    tidx := 0
    tmulti := false
    framesDone := 0
    sbCnt := 0
    phase := .hdr }

/-! ## Errors (60_exceptions.md) -/

/-- Error entry (R222): ERR <- code, PHASE <- ERROR, BUSY <- 0. Everything else stays as the command left it. -/
def State.enterError (s : State) (code : ErrKind) : State := { s with err := code, phase := .error, busy := false }

/-- raise Error(code) (R12, R222): the command ends here, in a next state. -/
def raiseError (code : ErrKind) (s : State) : Result := .next (s.enterError code)

/-- The return from ERROR, and the end of an abandoned stream, as ABORT makes it (R195, R225). -/
def State.abandon (s : State) : State :=
  { s with sbCnt := 0, tmulti := false, err := .noError, phase := .idle }

/-! ## Running a command -/

/-- Emit each byte in order (EmitSeq, R12). -/
def emits (bs : List Byte) : List CmdStep := bs.map .emit

/-- Run the steps of a command in order (R13), with Emit as in R66: on `accept` the byte joins the output and the run
goes on; on `stall` the command waits with the same byte on offer; on `fail` WriteFailure is raised and every later step
is skipped. A step that comes to an unwritten palette entry is the model fault of R40. -/
def runSteps (steps : List CmdStep) (s : State) : Result :=
  match steps with
  | [] => .next s.endCommand
  | .emit b :: rest =>
    match s.sink.answer with
    | .accept => runSteps rest (s.answered.append b)
    | .stall => .next (s.answered.suspend (.emit b :: rest))
    | .fail => raiseError .writeFailure s.answered
  | .scan i e :: rest => runSteps rest (s.scanEntry i e)
  | .unwritten _ :: _ => .fault .unwrittenPalette
  | .setPhase p :: rest => runSteps rest (s.setPhase p)
  | .clearFill :: rest => runSteps rest s.clearFill
  | .endFrame :: rest => runSteps rest s.countFrame

/-- Command acceptance for a command legal in the phases `legal` (R200, R226): BUSY, then ERROR (R224), then the phase,
then BUSY <- 1 and the command's own rule, which ends with BUSY <- 0 or in an error. -/
def issue (legal : List Phase) (run : State → Result) (s : State) : Result :=
  if s.busy then .fault .hazard
  else if s.phase = .error then .next s
  else if s.phase ∈ legal then run s.beginCommand
  else raiseError .sequenceError s

/-- Command acceptance for NOP and ABORT, legal in every phase, ERROR included (R200). -/
def issueAlways (run : State → Result) (s : State) : Result :=
  if s.busy then .fault .hazard else run s.beginCommand

/-- A turn of the block: a command cut by a stall offers its byte again and goes on; an idle block does nothing
(R66, R252). -/
def blockTurn (s : State) : Result :=
  if s.busy then runSteps s.pending s.takeUp else .next s

/-! ## Reset and the boundary -/

/-- Reset at any moment (R250, R251): the block is as after reset. What lies outside the block stays: the bytes the sink
accepted and its answers to come, the words the host has read, and the host's moves to come. -/
def State.afterReset (s : State) : State :=
  { State.reset with out := s.out, sink := s.sink, reads := s.reads, agenda := s.agenda }

/-- A host read has returned v. -/
def State.returnWord (s : State) (v : Word) : State := { s with reads := s.reads ++ [v] }

/-- The moves still to come. -/
def State.withAgenda (s : State) (moves : List Move) : State := { s with agenda := moves }

end Sys2Proof.Machine
end

