-- ==== Sys2Proof/Machine/Records.lean ====
section
/-! DEFINITION. The output records, byte by byte (30_encoding.md section 2). Every 16-bit field is little-endian (R67). -/

namespace Sys2Proof.Machine

/-- The signature, ASCII "GIF89a" (R86). -/
def signature : List Byte := [0x47, 0x49, 0x46, 0x38, 0x39, 0x61]

/-- The packed byte of the logical screen descriptor, 0xF0 | (PAL_K - 1) (R88, R123). -/
def lsdPacked (palK : BitVec 4) : Byte := (0xF0 : Byte) ||| (palK - 1).setWidth 8

/-- The logical screen descriptor, 7 bytes (R87). -/
def screenDescriptor (width height : Half) (palK : BitVec 4) : List Byte :=
  le16 width ++ le16 height ++ [lsdPacked palK, 0x00, 0x00]

/-- The color-table bytes of one palette entry: R, G, B (R89). -/
def colorTriplet (e : Word) : List Byte := [red e, green e, blue e]

/-- The NETSCAPE2.0 loop extension, 19 bytes (R90). -/
def loopExtension (count : Half) : List Byte :=
  [0x21, 0xFF, 0x0B] ++ [0x4E, 0x45, 0x54, 0x53, 0x43, 0x41, 0x50, 0x45, 0x32, 0x2E, 0x30] ++ [0x03, 0x01]
    ++ le16 count ++ [0x00]

/-- The graphic control extension, 8 bytes (R91). -/
def graphicControl (tflag : Bool) (delay : Half) (tidx : Byte) : List Byte :=
  [0x21, 0xF9, 0x04] ++ [if tflag then 0x01 else 0x00] ++ le16 delay ++ [tidx, 0x00]

/-- The image descriptor, 10 bytes (R92). -/
def imageDescriptor (left top width height : Half) : List Byte :=
  [0x2C] ++ le16 left ++ le16 top ++ le16 width ++ le16 height ++ [0x00]

/-- One data sub-block: its length byte, then its payload (R94). -/
def subBlock (payload : List Byte) : List Byte := BitVec.ofNat 8 payload.length :: payload

/-- The zero-length sub-block that ends a frame's image data (R94). -/
def blockTerminator : Byte := 0x00

/-- The trailer (R95). -/
def trailerByte : Byte := 0x3B

end Sys2Proof.Machine
end

