-- ==== Sys2Proof/Machine/Frame.lean ====
section
/-! DEFINITION. FRAME and FRAME_END (42_frame.md), PUSH and the sub-block chunker (43_subblock.md). -/

namespace Sys2Proof.Machine

/-- The 19 bytes FRAME emits: graphic control extension, image descriptor, minimum code size (R150 to R153). -/
def State.frameBytes (s : State) : List Byte :=
  graphicControl s.tflag s.delay s.tidx ++ imageDescriptor s.minX s.minY s.frameWidth s.frameHeight
    ++ [s.mcs.setWidth 8]

/-- The steps of FRAME (R150). -/
def frameSteps (s : State) : List CmdStep := emits s.frameBytes ++ [.clearFill, .setPhase .data]

/-- FRAME, legal in FRM (R150, R200). -/
def execFrame (s : State) : Result := issue [.frm] (fun s => runSteps (frameSteps s) s) s

/-- The bytes held in the chunker: SB_BUF[0] to SB_BUF[SB_CNT - 1] (R32, R172). -/
def State.held (s : State) : List Byte := s.sbBuf.toList.take s.sbCnt.toNat

/-- The steps that emit the held bytes as one sub-block and empty the buffer (R171, R172): the length byte is SB_CNT. -/
def blockSteps (s : State) : List CmdStep := .emit s.sbCnt :: (emits s.held ++ [.clearFill])

/-- The rest of PUSH once the byte is buffered (R170, R171): a full buffer leaves as one sub-block at once. -/
def pushSteps (s : State) : List CmdStep := if s.sbCnt = 255 then blockSteps s else []

/-- PUSH b, legal in DATA (R170, R200). -/
def execPush (b : Byte) (s : State) : Result :=
  issue [.data] (fun s => runSteps (pushSteps (s.bufferByte b)) (s.bufferByte b)) s

/-- SB_FLUSH (R172): nothing when no byte is held. -/
def flushSteps (s : State) : List CmdStep := if s.sbCnt = 0 then [] else blockSteps s

/-- The steps of FRAME_END (R156). -/
def frameEndSteps (s : State) : List CmdStep := flushSteps s ++ [.emit blockTerminator, .endFrame]

/-- FRAME_END, legal in DATA (R156, R200). -/
def execFrameEnd (s : State) : Result := issue [.data] (fun s => runSteps (frameEndSteps s) s) s

end Sys2Proof.Machine
end

