-- ==== Sys2Proof/Machine/Header.lean ====
section
/-! DEFINITION. HEADER (40_header.md) and LOOPEXT (41_loop_extension.md). -/

namespace Sys2Proof.Machine

/-- The 13 bytes of signature and screen descriptor HEADER emits (R120, R122). -/
def State.headerBytes (s : State) : List Byte := signature ++ screenDescriptor s.maxX s.maxY s.palK

/-- HEADER's steps at palette entry i, read as it stood when HEADER was accepted (R64, R121): its three bytes, then its
scan (R124). -/
def entrySteps (m : Memory) (i : Nat) : List CmdStep :=
  match m.readEntry i with
  | some e => emits (colorTriplet e) ++ [.scan i e]
  | none => [.unwritten i]

/-- The phase after HEADER (R125). -/
def State.phaseAfterHeader (s : State) : Phase := if 1 < s.fcL then .loop else .frm

/-- The steps of HEADER (R120): the table's entries in increasing order, once each (R121). -/
def headerSteps (s : State) : List CmdStep :=
  emits s.headerBytes ++ ((List.range s.paletteLength).flatMap (entrySteps s.palette) ++ [.setPhase s.phaseAfterHeader])

/-- HEADER, legal in HDR (R120, R200). -/
def execHeader (s : State) : Result := issue [.hdr] (fun s => runSteps (headerSteps s) s) s

/-- The steps of LOOPEXT (R140). -/
def loopextSteps (s : State) : List CmdStep := emits (loopExtension s.loopL) ++ [.setPhase .frm]

/-- LOOPEXT, legal in LOOP (R140, R200). -/
def execLoopext (s : State) : Result := issue [.loop] (fun s => runSteps (loopextSteps s) s) s

end Sys2Proof.Machine
end

