-- ==== Sys2Proof/Machine/Orchestrator.lean ====
section
/-! DEFINITION. START, TRAILER, NOP and ABORT (44_orchestrator.md). -/

namespace Sys2Proof.Machine

/-- NOP does nothing, in every phase (R193). -/
def execNop (s : State) : Result := issueAlways (fun s => .next s.endCommand) s

/-- The first of START's checks that fails, in the order of R190. -/
def startCheck (s : State) : Option ErrKind :=
  if s.frameCount ≠ s.delayCount then some .frameDelayCountMismatch
  else if s.frameCount = 0 then some .emptyAnimation
  else if legalPaletteLength s.palLen = false then some .paletteLengthError
  else none

/-- START's own rule (R190, R194): a failing check changes nothing but ERR and PHASE. -/
def startStream (s : State) : Result :=
  match startCheck s with
  | some code => raiseError code s
  | none => .next s.openStream.endCommand

/-- START, legal in IDLE and DONE (R190, R200). -/
def execStart (s : State) : Result := issue [.idle, .done] startStream s

/-- The steps of TRAILER (R192). -/
def trailerSteps : List CmdStep := [.emit trailerByte, .setPhase .done]

/-- TRAILER, legal in TRL (R192, R200). -/
def execTrailer (s : State) : Result := issue [.trl] (fun s => runSteps trailerSteps s) s

/-- ABORT, legal in every phase (R195, R200): the accepted bytes stay, and so do the latches. -/
def execAbort (s : State) : Result := issueAlways (fun s => .next s.abandon.endCommand) s

end Sys2Proof.Machine
end

