-- ==== Sys2Proof/Machine/Dispatch.lean ====
section
/-! DEFINITION. The meaning of each command, one arm per row of opcode_table.json. -/

namespace Sys2Proof.Machine

def exec (i : Instr) (s : State) : Host.Outcome State Fault Refusal :=
  match i with
  | .nop => Sys2Proof.Machine.execNop s
  | .start => Sys2Proof.Machine.execStart s
  | .header => Sys2Proof.Machine.execHeader s
  | .loopext => Sys2Proof.Machine.execLoopext s
  | .frame => Sys2Proof.Machine.execFrame s
  | .push imm => Sys2Proof.Machine.execPush imm s
  | .frameEnd => Sys2Proof.Machine.execFrameEnd s
  | .trailer => Sys2Proof.Machine.execTrailer s
  | .abort => Sys2Proof.Machine.execAbort s

end Sys2Proof.Machine
end

