-- ==== Sys2Proof/Machine/Registers.lean ====
section
/-! DEFINITION. The register table of the host window (R33): offsets, what a read returns, what a write stores. -/

namespace Sys2Proof

/-- The window offset of a register (R33). -/
def Reg.offset : Reg → Offset
  | .cmd => 0x000
  | .status => 0x004
  | .frameCount => 0x008
  | .delayCount => 0x00C
  | .loopCount => 0x010
  | .palLen => 0x014
  | .frameMin => 0x018
  | .frameMax => 0x01C
  | .delay => 0x020
  | .trans => 0x024
  | .info => 0x028
  | .loopNorm => 0x02C
  | .framesDone => 0x030
  | .sbFill => 0x034
  | .pal i => BitVec.ofNat 12 (Config.paletteBase + 4 * i.val)

end Sys2Proof

namespace Sys2Proof.Machine

/-- The register at a window offset; none where the table has a reserved or unmapped offset (R33, R62). -/
def regAt (off : Offset) : Option Reg :=
  match off.toNat with
  | 0x000 => some .cmd
  | 0x004 => some .status
  | 0x008 => some .frameCount
  | 0x00C => some .delayCount
  | 0x010 => some .loopCount
  | 0x014 => some .palLen
  | 0x018 => some .frameMin
  | 0x01C => some .frameMax
  | 0x020 => some .delay
  | 0x024 => some .trans
  | 0x028 => some .info
  | 0x02C => some .loopNorm
  | 0x030 => some .framesDone
  | 0x034 => some .sbFill
  | n => if Config.paletteBase ≤ n ∧ n < Config.paletteEnd then
      some (.pal (Fin.ofNat 256 ((n - Config.paletteBase) / 4))) else none

/-- What a read of a register returns (R33 to R46, R61); none only for a palette entry never written since reset. -/
def readReg (s : State) : Reg → Option Word
  | .cmd => some 0
  | .status => some s.statusWord
  | .frameCount => some s.frameCount
  | .delayCount => some s.delayCount
  | .loopCount => some s.loopCount
  | .palLen => some s.palLen
  | .frameMin => some s.frameMin
  | .frameMax => some s.frameMax
  | .delay => some s.delayWord
  | .trans => some s.transWord
  | .info => some s.infoWord
  | .loopNorm => some s.loopNormWord
  | .framesDone => some s.framesDone
  | .sbFill => some s.sbFillWord
  | .pal i => s.palette.readEntry i.val

/-- What a write of a register other than CMD stores (R36 to R41, R61): a write to a read-only register is ignored
(R62). CMD stores nothing: its write issues a command (R34). -/
def writeReg (s : State) (r : Reg) (v : Word) : State :=
  match r with
  | .cmd => s
  | .status => s
  | .frameCount => { s with frameCount := v }
  | .delayCount => { s with delayCount := v }
  | .loopCount => { s with loopCount := v }
  | .palLen => { s with palLen := v }
  | .frameMin => { s with frameMin := v }
  | .frameMax => { s with frameMax := v }
  | .delay => { s with delay := lowHalf v }
  | .trans => s
  | .info => s
  | .loopNorm => s
  | .framesDone => s
  | .sbFill => s
  | .pal i => { s with palette := s.palette.writeEntry i.val v }

end Sys2Proof.Machine
end

