-- ==== Sys2Proof/Machine/Bus.lean ====
section
/-! DEFINITION. Host bus accesses (20_memory.md section 2), the CMD write with its checks in order (R200, R226), and the
moves at the block's boundary (log 2). -/

namespace Sys2Proof.Machine

/-- The words NOP and ABORT, the only ones not ignored in ERROR (R224). -/
def leavesIgnoring (w : Word) : Bool := w == encode .nop || w == encode .abort

/-- A write of w to CMD (R200): BUSY, then ERROR, then decoding, then the command with its phase check. -/
def issueWord (w : Word) (s : State) : Result :=
  if s.busy then .fault .hazard
  else if s.phase = .error ∧ leavesIgnoring w = false then .next s
  else match decode w with
    | .error _ => raiseError .illegalCommand s
    | .ok i => exec i s

/-- An access of 32 bits at a multiple of 4 (R61). -/
def onBus (off : Offset) (width : Width) : Bool := width == .bits32 && off.toNat % 4 == 0

/-- MemRead (R61): the word is returned to the host; nothing in the block changes (R63). -/
def busRead (off : Offset) (width : Width) (s : State) : Result :=
  if onBus off width = false then .fault .busAccess
  else match regAt off with
    | none => .next (s.returnWord 0)
    | some r => match readReg s r with
      | none => .fault .unwrittenPalette
      | some v => .next (s.returnWord v)

/-- MemWrite (R61): the width and offset first, then the busy hazard (R261), then the register. -/
def busWrite (off : Offset) (width : Width) (v : Word) (s : State) : Result :=
  if onBus off width = false then .fault .busAccess
  else if s.busy then .fault .hazard
  else match regAt off with
    | none => .next s
    | some .cmd => issueWord v s
    | some r => .next (writeReg s r v)

/-- One host access. -/
def hostAccess (a : Access) (s : State) : Result :=
  match a with
  | .read off width => busRead off width s
  | .write off width v => busWrite off width v s

/-- One poll of WAIT (R98): the host reads STATUS. BUSY = 0 ends the wait; else the block has its turn and the host will
poll again. `rest` is what follows the wait. -/
def waitPoll (rest : List Move) (s : State) : Result :=
  if s.busy then blockTurn (s.returnWord s.statusWord)
  else .next ((s.returnWord s.statusWord).withAgenda rest)

/-- The host's write of a command word to CMD (R34). -/
def commandMove (w : Word) : Move := .access (.write Reg.cmd.offset .bits32 w)

/-- A command of the host's EncodeAll: its CMD write, the WAIT, and the look at STATUS after it (R99, log 9). -/
def checkedMoves (i : Instr) : List Move := [commandMove (encode i), .wait, .checkError]

/-- What stays to come once the host has stopped in its call (R99): the moves after the call, and those inside it that
are not the host's. -/
def skipCall (moves : List Move) : List Move :=
  match moves with
  | [] => []
  | .callEnd :: rest => rest
  | .turn :: rest => .turn :: skipCall rest
  | .reset :: rest => .reset :: skipCall rest
  | .access _ :: rest => skipCall rest
  | .wait :: rest => skipCall rest
  | .checkError :: rest => skipCall rest
  | .compressed _ :: rest => skipCall rest

/-- STATUS[2:0], the phase the host sees (R35). -/
def phaseField (status : Word) : BitVec 3 := status.extractLsb' 0 3

/-- INFO[3:0], the code size the host configures its compressor with (R43, R161). -/
def codeSizeField (info : Word) : BitVec 4 := info.extractLsb' 0 4

/-- If STATUS.PHASE = ERROR stop with STATUS.ERR (R99): the word read, which holds ERR, is the last the call reads. -/
def checkError (rest : List Move) (s : State) : State :=
  (s.returnWord s.statusWord).withAgenda
    (if phaseField s.statusWord = Phase.error.code then skipCall rest else rest)

/-- Compress with MCS from INFO[3:0], then DATA the compressed bytes (R99). The compressor is outside the block (R5), so
its bytes for each code size stand in the move. -/
def forwardCompressed (byCodeSize : Vector (List Byte) 16) (rest : List Move) (s : State) : State :=
  (s.returnWord s.infoWord).withAgenda
    ((byCodeSize[(codeSizeField s.infoWord).toNat]'(codeSizeField s.infoWord).isLt).flatMap (fun b => checkedMoves (.push b)) ++ rest)

/-- The next move at the block's boundary (log 2). When the host has no move left, the block goes on with a command a
stall has cut, and is otherwise at rest (R252, R265). -/
def nextMove (s : State) : Result :=
  match s.agenda with
  | [] => blockTurn s
  | .access a :: rest => hostAccess a (s.withAgenda rest)
  | .wait :: rest => waitPoll rest s
  | .turn :: rest => blockTurn (s.withAgenda rest)
  | .reset :: rest => .next (s.withAgenda rest).afterReset
  | .checkError :: rest => .next (checkError rest s)
  | .compressed byCodeSize :: rest => .next (forwardCompressed byCodeSize rest s)
  | .callEnd :: rest => .next (s.withAgenda rest)

end Sys2Proof.Machine
end

