-- ==== Sys2Proof/Machine/Step.lean ====
section
/-! DEFINITION. The step: the next move at GIFASM's boundary. -/

namespace Sys2Proof.Machine

/-- One step: the next move of the host, of the block or of reset (log 2). A command is one step, split only where the
sink stalls (R264). -/
def step (s : State) : Host.Outcome State Fault Refusal := nextMove s

/-- GIFASM fetches no instruction (R73): its next command is the word the host writes to CMD next. That write becomes
the next move (log 2). -/
def State.withFetchWord (s : State) (nbits w : Nat) : State :=
  s.withAgenda (commandMove (BitVec.ofNat 32 (w % 2 ^ nbits)) :: s.agenda)

end Sys2Proof.Machine
end

