-- ==== Sys2Proof/Machine/Program.lean ====
section
/-! DEFINITION. The host notation as moves: program lines (R97), pseudo-instructions (R98) and the whole-animation
sequence (R99). A host program is a list of moves placed in `agenda`; nothing here is state. -/

namespace Sys2Proof

/-- `wr NAME, value` (R97). -/
def writeMove (r : Reg) (v : Nat) : Move := .access (.write r.offset .bits32 (BitVec.ofNat 32 v))

/-- `rd NAME` (R97). -/
def readMove (r : Reg) : Move := .access (.read r.offset .bits32)

/-- A command mnemonic: `wr CMD, encoding` (R97). -/
def instrMove (i : Instr) : Move := Machine.commandMove (encode i)

/-- A command and the WAIT after it (R98). -/
def runInstr (i : Instr) : List Move := [instrMove i, .wait]

/-- `DATA b0, ..., bn` (R98). -/
def dataMoves (bytes : List Byte) : List Move := bytes.flatMap (fun b => runInstr (.push b))

/-- The word `(y << 16) | x` of SETFRAME (R98). -/
def boundWord (x y : Nat) : Nat := y * 2 ^ 16 + x

/-- `SETFRAME minx, miny, maxx, maxy, d` (R98). -/
def setFrameMoves (minx miny maxx maxy d : Nat) : List Move :=
  [writeMove .frameMin (boundWord minx miny), writeMove .frameMax (boundWord maxx maxy), writeMove .delay d]

/-- `BEGIN f, dc, loop, n` (R98). -/
def beginMoves (f dc loop n : Nat) : List Move :=
  [writeMove .frameCount f, writeMove .delayCount dc, writeMove .loopCount loop, writeMove .palLen n] ++ runInstr .start

/-- `ENCODE1 n, minx, miny, maxx, maxy, d, bytes` (R98). -/
def encode1Moves (n minx miny maxx maxy d : Nat) (bytes : List Byte) : List Move :=
  beginMoves 1 1 0 n ++ setFrameMoves minx miny maxx maxy d ++ runInstr .header ++ runInstr .frame ++ dataMoves bytes
    ++ runInstr .frameEnd ++ runInstr .trailer

/-- The moves of a host line (R97, R98). -/
def HostLine.moves : HostLine → List Move
  | .wr r v => [writeMove r v]
  | .rd r => [readMove r]
  | .command i => [instrMove i]
  | .wait => [.wait]
  | .data bytes => dataMoves bytes
  | .setFrame x y x' y' d => setFrameMoves x y x' y' d
  | .beginStream f dc loop n => beginMoves f dc loop n
  | .encode1 n x y x' y' d bytes => encode1Moves n x y x' y' d bytes

/-- One frame as the host of R99 holds it: its bounds, its palette (only that of frame 0 is used) and its index buffer. -/
structure HostFrame where
  minX : Nat
  minY : Nat
  maxX : Nat
  maxY : Nat
  palette : List Word
  indices : List Byte
deriving DecidableEq, Repr

/-- The external compressor (R5): from a minimum code size and a frame's indices to its bytes. The host's choice of code
size is INFO[3:0] at the time, so the move holds the bytes for every one (R99, R161). -/
def compressedMove (compress : BitVec 4 → List Byte → List Byte) (indices : List Byte) : Move :=
  .compressed (Vector.ofFn (fun m : Fin 16 => compress (BitVec.ofFin m) indices))

/-- `SETFRAME` with a frame's bounds; a bound above 65535 is written modulo 2^16 (R39). -/
def HostFrame.setMoves (f : HostFrame) (delay : Nat) : List Move :=
  setFrameMoves (f.minX % 2 ^ 16) (f.minY % 2 ^ 16) (f.maxX % 2 ^ 16) (f.maxY % 2 ^ 16) delay

/-- The moves for frame k of R99, with delay k. -/
def frameMoves (compress : BitVec 4 → List Byte → List Byte) (f : HostFrame) (delay : Nat) : List Move :=
  f.setMoves delay ++ Machine.checkedMoves .frame ++ [compressedMove compress f.indices] ++ Machine.checkedMoves .frameEnd

/-- Write the palette to PAL[0..N-1] (R99). DESIGN CHOICE (log 14): of a palette with more than 256 entries, which START
will reject, only the first 256 are written, as the spec has no PAL[i] past 255 and does not say what the host does. -/
def paletteMoves (palette : List Word) : List Move :=
  ((palette.take Config.paletteEntries).zipIdx 0).map (fun p => writeMove (.pal (Fin.ofNat 256 p.2)) p.1.toNat)

/-- The palette of frame 0 (R99). DESIGN CHOICE (log 14): without a frame, which START will reject, it is empty. -/
def firstPalette (frames : List HostFrame) : List Word :=
  match frames with
  | [] => []
  | f :: _ => f.palette

/-- EncodeAll's moves once BEGIN has opened a stream (R99). The delay written with frame 0's bounds before HEADER, which
R99 does not name, is delay 0 (log 9); FRAME reads it only after it is written again. -/
def streamMoves (compress : BitVec 4 → List Byte → List Byte) (frames : List HostFrame) (delays : List Nat) : List Move :=
  (match frames with
    | [] => []
    | f :: _ => f.setMoves (delays.headD 0))
  ++ Machine.checkedMoves .header
  ++ (if 1 < frames.length then Machine.checkedMoves .loopext else [])
  ++ (frames.zip delays).flatMap (fun p => frameMoves compress p.1 p.2)
  ++ Machine.checkedMoves .trailer

/-- EncodeAll(sink, frames, delays, loopCount) as a host sequence (R99): the host looks at STATUS after every WAIT and
stops in ERROR (log 9). A count that does not fit its register is written modulo 2^32 (log 14). -/
def encodeAllMoves (compress : BitVec 4 → List Byte → List Byte) (frames : List HostFrame) (delays : List Nat)
    (loopCount : Int) : List Move :=
  paletteMoves (firstPalette frames)
    ++ beginMoves frames.length delays.length (BitVec.ofInt 32 loopCount).toNat (firstPalette frames).length
    ++ [.checkError] ++ streamMoves compress frames delays ++ [.callEnd]

end Sys2Proof
end

