-- ==== Sys2Proof/Safety.lean ====
section
/-! DEFINITION. The terms in which claims speak: the observation of a run (R265), which commands a phase admits (R200),
and the invariant of the machine. -/

namespace Sys2Proof.Machine

/-! ## Runs -/

/-- A run has ended: the host makes no further move and BUSY = 0 (R265). -/
def State.ended (s : State) : Prop := s.agenda = [] ∧ s.busy = false

/-- What a run that ends leaves to see (R265). -/
structure Observation where
  out : List Byte
  status : Word
  trans : Word
  info : Word
  loopNorm : Word
  framesDone : Word
  sbFill : Word
deriving DecidableEq, Repr

/-- The observation of R265. -/
def State.observe (s : State) : Observation :=
  { out := s.out, status := s.statusWord, trans := s.transWord, info := s.infoWord, loopNorm := s.loopNormWord
    framesDone := s.framesDone, sbFill := s.sbFillWord }

/-- A run ended here produced a complete stream (R202, R265). -/
def State.complete (s : State) : Prop := s.phase = .done ∧ s.err = .noError

/-- Run commands one after the other, as a host that waits for BUSY = 0 between them. -/
def execAll (is : List Instr) (s : State) : Result :=
  match is with
  | [] => .next s
  | i :: rest =>
    match exec i s with
    | .next t => execAll rest t
    | .fault r => .fault r
    | .refused r => .refused r

/-! ## The sink -/

/-- The sink after n answers. -/
def Sink.after (k : Sink) (n : Nat) : Sink := { k with script := k.script.drop n }

/-- The sink answers `accept` to the next n offered bytes. -/
abbrev Sink.accepts (k : Sink) (n : Nat) : Prop := ∀ j < n, (k.after j).answer = .accept

/-- The sink accepts n bytes and fails the one after them. -/
abbrev Sink.failsAt (k : Sink) (n : Nat) : Prop := k.accepts n ∧ (k.after n).answer = .fail

/-- The sink never answers `fail` (R202). -/
abbrev Sink.neverFails (k : Sink) : Prop := k.rest ≠ .fail ∧ ∀ a ∈ k.script, a ≠ .fail

/-! ## Sequencing -/

/-- The phases a command is legal in (R82, R200). -/
def legalIn (i : Instr) (p : Phase) : Bool :=
  match i with
  | .nop => true
  | .start => p == .idle || p == .done
  | .header => p == .hdr
  | .loopext => p == .loop
  | .frame => p == .frm
  | .push _ => p == .data
  | .frameEnd => p == .data
  | .trailer => p == .trl
  | .abort => true

/-! ## The invariant -/

/-- A phase between a successful START and the end of its stream. -/
def Phase.streaming (p : Phase) : Bool :=
  match p with
  | .idle => false
  | .hdr => true
  | .loop => true
  | .frm => true
  | .data => true
  | .trl => true
  | .done => true
  | .error => false

/-- A palette holds whole entries only, and nothing outside the palette window: an access writes all four bytes of an
entry at once (R61, R64). -/
def Memory.wholeEntries (m : Memory) : Prop :=
  (∀ i, ∀ k < 4, (m.readByte (entryOffset i + k)).isSome = (m.readByte (entryOffset i)).isSome) ∧
  (∀ c ∈ m, Config.paletteBase ≤ c.1 ∧ c.1 < Config.paletteEnd)

/-- A step of HEADER before its last one. -/
def CmdStep.ofTable : CmdStep → Bool
  | .emit _ => true
  | .scan _ _ => true
  | .unwritten _ => true
  | .setPhase _ => false
  | .clearFill => false
  | .endFrame => false

/-- What a command cut by a stall may still have to do, by the phase it runs in: the rest of HEADER, LOOPEXT, FRAME, a
full PUSH, FRAME_END or TRAILER. -/
def State.pendingFits (s : State) : Prop :=
  match s.phase with
  | .idle => s.pending = []
  | .hdr => ∃ table, s.pending = table ++ [.setPhase (if 1 < s.fcL then .loop else .frm)] ∧ ∀ c ∈ table, c.ofTable
  | .loop => ∃ bs, s.pending = emits bs ++ [.setPhase .frm]
  | .frm => ∃ bs, s.pending = emits bs ++ [.clearFill, .setPhase .data]
  | .data => (∃ bs, s.pending = emits bs ++ [.clearFill]) ∨
      (∃ bs, s.pending = emits bs ++ [.clearFill, .emit blockTerminator, .endFrame]) ∨
      (s.pending = [.emit blockTerminator, .endFrame] ∧ s.sbCnt = 0)
  | .trl => s.pending = [.emit trailerByte, .setPhase .done]
  | .done => s.pending = []
  | .error => s.pending = []

/-- The invariant of GIFASM between two moves. -/
structure State.Inv (s : State) : Prop where
  /-- the palette RAM is in canonical form -/
  canonical : s.palette.wf
  /-- and holds whole entries -/
  whole : s.palette.wholeEntries
  /-- ERR names an error exactly in ERROR (R222, R225) -/
  errPhase : s.err = .noError ↔ s.phase ≠ .error
  /-- BUSY is 1 exactly while a cut command waits (R22) -/
  busyPending : s.busy = true ↔ s.pending ≠ []
  /-- a waiting command is one its phase admits -/
  pendingFits : s.busy = true → s.pendingFits
  /-- in a stream the palette length is one START admits, and MCS belongs to it (R27, R28) -/
  lengths : s.phase.streaming → 1 ≤ s.palK.toNat ∧ s.palK.toNat ≤ 8 ∧ s.mcs.toNat = clog2 (2 ^ s.palK.toNat + 2)
  /-- a stream has a frame (R190) -/
  frames : s.phase.streaming → 0 < s.fcL.toNat
  /-- FRAMES_DONE never exceeds FC_L (R31) -/
  counted : s.framesDone.toNat ≤ s.fcL.toNat
  /-- no frame is done before the first FRAME (R190) -/
  notBegun : s.phase = .hdr ∨ s.phase = .loop → s.framesDone = 0
  /-- HEADER starts with the flags as START left them (R127, R190) -/
  fresh : s.phase = .hdr → s.busy = false → s.tflag = false ∧ s.tmulti = false
  /-- the loop extension is due only with several frames (R125, R141) -/
  several : s.phase = .loop → 1 < s.fcL.toNat
  /-- while frames are due, not all are done (R157) -/
  due : s.phase = .frm ∨ s.phase = .data → s.framesDone.toNat < s.fcL.toNat
  /-- the trailer comes after the last frame (R157) -/
  last : s.phase = .trl ∨ s.phase = .done → s.framesDone = s.fcL
  /-- the chunker holds at most 254 bytes, but inside a command of DATA and after a failed full block (R32, R174) -/
  fill : s.busy = false ∨ s.phase ≠ .data → s.phase ≠ .error → s.sbCnt.toNat ≤ 254
  /-- without the flag the transparent index is 0 (R29, R151) -/
  index : s.tflag = false → s.tidx = 0
  /-- a second non-opaque entry comes after a first (R124) -/
  multi : s.tmulti = true → s.tflag = true

end Sys2Proof.Machine
end

