-- ==== Sys2Proof/WellFormed.lean ====
section
/-! DEFINITION. Which terms the spec gives a meaning: legal command-word fields (R81), bus accesses (R61) and host
lines whose operands fit their fields (R97, R98). -/

namespace Sys2Proof

/-- R81: the opcode is assigned, RSV is 0, and IMM8 is 0 unless the opcode is PUSH. -/
def CmdFields.wellFormed (f : CmdFields) : Bool :=
  decide (f.op.toNat ≤ 8) && decide (f.rsv = 0) && (decide (f.op = 5) || decide (f.imm = 0))

/-- Every term of Instr is a command of R82: PUSH's operand is a byte by its type, and no other command has one. -/
def Instr.wellFormed : Instr → Bool
  | .nop => true
  | .start => true
  | .header => true
  | .loopext => true
  | .frame => true
  | .push _ => true
  | .frameEnd => true
  | .trailer => true
  | .abort => true

def Access.offset : Access → Offset
  | .read off _ => off
  | .write off _ _ => off

def Access.width : Access → Width
  | .read _ w => w
  | .write _ w _ => w

/-- R61: one 32-bit word at an offset that is a multiple of 4. -/
def Access.wellFormed (a : Access) : Bool :=
  decide (a.width = .bits32) && decide (a.offset.toNat % 4 = 0)

/-- R97, R98: a written value fits a bus word; bounds fit their 16-bit fields, so that the word SETFRAME builds holds
them side by side. -/
def HostLine.wellFormed : HostLine → Bool
  | .wr _ v => decide (v < 2 ^ 32)
  | .rd _ => true
  | .command i => i.wellFormed
  | .wait => true
  | .data _ => true
  | .setFrame x y x' y' d =>
    decide (x < 2 ^ 16) && decide (y < 2 ^ 16) && decide (x' < 2 ^ 16) && decide (y' < 2 ^ 16) && decide (d < 2 ^ 32)
  | .beginStream f d l n =>
    decide (f < 2 ^ 32) && decide (d < 2 ^ 32) && decide (l < 2 ^ 32) && decide (n < 2 ^ 32)
  | .encode1 n x y x' y' d _ =>
    decide (n < 2 ^ 32) && decide (x < 2 ^ 16) && decide (y < 2 ^ 16) && decide (x' < 2 ^ 16) && decide (y' < 2 ^ 16)
      && decide (d < 2 ^ 32)

end Sys2Proof
end

