-- ==== Sys2Proof/Certificates/Slice0/Obligations.lean ====
section
/-! DEFINITION. The statements about GIFASM. Each cites the rules of spec/ it formalises. -/

namespace Sys2Proof.Claims

open Sys2Proof.Machine

/-- Alpha other than 0xFF in bits [31:24] (R40). -/
def translucent (e : Word) : Bool := e.extractLsb' 24 8 != 0xFF

/-- The first translucent entry, 0 without one (R124). -/
def firstTranslucent (es : List Word) : Byte :=
  if es.any translucent then BitVec.ofNat 8 (es.findIdx translucent) else 0

/-- The 13 + 3N bytes of HEADER, from FRAME_MAX, log2 of the palette length and the palette (R86 to R89). -/
def headerStream (frameMax : Word) (k : Nat) (es : List Word) : List Byte :=
  [0x47, 0x49, 0x46, 0x38, 0x39, 0x61,
    frameMax.extractLsb' 0 8, frameMax.extractLsb' 8 8, frameMax.extractLsb' 16 8, frameMax.extractLsb' 24 8,
    BitVec.ofNat 8 (0xF0 + (k - 1)), 0x00, 0x00]
  ++ es.flatMap (fun e => [e.extractLsb' 0 8, e.extractLsb' 8 8, e.extractLsb' 16 8])

/-- The 19 bytes of LOOPEXT (R90). -/
def loopStream (count : Half) : List Byte :=
  [0x21, 0xFF, 0x0B, 0x4E, 0x45, 0x54, 0x53, 0x43, 0x41, 0x50, 0x45, 0x32, 0x2E, 0x30, 0x03, 0x01,
    count.extractLsb' 0 8, count.extractLsb' 8 8, 0x00]

/-- The width or height field: (max - min) mod 2^16, here on naturals (R92, R153). -/
def sizeField (lo hi : Nat) : Half := BitVec.ofNat 16 (2 ^ 16 + hi - lo)

/-- The 19 bytes of FRAME (R91 to R93). -/
def frameStream (s : State) : List Byte :=
  let w := sizeField (s.frameMin.toNat % 2 ^ 16) (s.frameMax.toNat % 2 ^ 16)
  let h := sizeField (s.frameMin.toNat / 2 ^ 16) (s.frameMax.toNat / 2 ^ 16)
  [0x21, 0xF9, 0x04, if s.tflag then 0x01 else 0x00, s.delay.extractLsb' 0 8, s.delay.extractLsb' 8 8, s.tidx, 0x00,
    0x2C, s.frameMin.extractLsb' 0 8, s.frameMin.extractLsb' 8 8, s.frameMin.extractLsb' 16 8,
    s.frameMin.extractLsb' 24 8, w.extractLsb' 0 8, w.extractLsb' 8 8, h.extractLsb' 0 8, h.extractLsb' 8 8, 0x00,
    BitVec.ofNat 8 s.mcs.toNat]

/-- The bytes of FRAME_END: the held bytes as a sub-block, if there are any, then the terminator (R156, R172). -/
def flushStream (s : State) : List Byte :=
  (if s.sbCnt = 0 then [] else s.sbCnt :: s.sbBuf.toList.take s.sbCnt.toNat) ++ [0x00]

/-- The 256 bytes of the PUSH of b that fills the buffer (R171). -/
def fullBlock (s : State) (b : Byte) : List Byte := 0xFF :: (s.sbBuf.toList.take 254 ++ [b])

/-- Payload bytes as sub-blocks of 255, the last one shorter unless it is full (R94, R173); `fuel` bounds their number. -/
def subBlocks (fuel : Nat) (bs : List Byte) : List Byte :=
  match fuel with
  | 0 => []
  | n + 1 => if bs = [] then [] else
      BitVec.ofNat 8 (min bs.length 255) :: (bs.take 255 ++ subBlocks n (bs.drop 255))

/-- One frame's image data: its sub-blocks and the terminator (R94). -/
def imageData (bs : List Byte) : List Byte := subBlocks bs.length bs ++ [0x00]

/-- The host-written registers, every byte of the palette, and what belongs to the host are the same in both. -/
def SameHostSide (s t : State) : Prop :=
  t.frameCount = s.frameCount ∧ t.delayCount = s.delayCount ∧ t.loopCount = s.loopCount ∧ t.palLen = s.palLen ∧
  t.frameMin = s.frameMin ∧ t.frameMax = s.frameMax ∧ t.delay = s.delay ∧
  (∀ a, t.palette.readByte a = s.palette.readByte a) ∧ t.reads = s.reads ∧ t.agenda = s.agenda

/-- The phases a command may end in (R201), when it is not cut by a stall. -/
def phasesAfter (s : State) (i : Instr) : List Phase :=
  match i, s.phase with
  | .nop, p => [p]
  | .abort, _ => [.idle]
  | _, .error => [.error]
  | .start, .idle => [.hdr, .error]
  | .start, .done => [.hdr, .error]
  | .header, .hdr => [if 1 < s.fcL.toNat then .loop else .frm, .error]
  | .loopext, .loop => [.frm, .error]
  | .frame, .frm => [.data, .error]
  | .push _, .data => [.data, .error]
  | .frameEnd, .data => [if s.framesDone.toNat + 1 < s.fcL.toNat then .frm else .trl, .error]
  | .trailer, .trl => [.done, .error]
  | _, _ => [.error]

/-- The checks of START pass (R190). -/
def StartPasses (s : State) : Prop :=
  s.frameCount = s.delayCount ∧ s.frameCount ≠ 0 ∧ ∃ k, 1 ≤ k ∧ k ≤ 8 ∧ s.palLen.toNat = 2 ^ k

/-- The error START raises for these frames and delays, if its checks fail (R190); the counts fit their registers. -/
def beginError (frames : List HostFrame) (delays : List Nat) : Option ErrKind :=
  if frames.length ≠ delays.length then some .frameDelayCountMismatch
  else if frames = [] then some .emptyAnimation
  else if (firstPalette frames).length ∈ [2, 4, 8, 16, 32, 64, 128, 256] then none
  else some .paletteLengthError

/-- One frame of EncodeAll as it leaves in the stream whose latches u holds: its frame header, from its own bounds modulo
2^16 and delay, and its compressed bytes as image data (R96, R99). -/
def encodedFrame (compress : BitVec 4 → List Byte → List Byte) (u : State) (f : HostFrame) (delay : Nat) : List Byte :=
  frameStream { u with
    frameMin := BitVec.ofNat 32 (f.minY % 2 ^ 16 * 2 ^ 16 + f.minX % 2 ^ 16)
    frameMax := BitVec.ofNat 32 (f.maxY % 2 ^ 16 * 2 ^ 16 + f.maxX % 2 ^ 16)
    delay := BitVec.ofNat 16 delay }
  ++ imageData (compress u.mcs f.indices)

/-- The canvas of EncodeAll: frame 0's maximum bound (R99, R122). -/
def canvas (frames : List HostFrame) : Word :=
  match frames with
  | [] => 0
  | f :: _ => BitVec.ofNat 32 (f.maxY % 2 ^ 16 * 2 ^ 16 + f.maxX % 2 ^ 16)

/-- t is the state n steps after s. -/
def Steps : Nat → State → State → Prop
  | 0, s, t => t = s
  | n + 1, s, t => ∃ u, step s = .next u ∧ Steps n u t

end Sys2Proof.Claims

open Sys2Proof Sys2Proof.Machine Sys2Proof.Claims

/-! ## Encoding -/

/-- R80 to R85: every command word has one meaning, and every command one word. -/
def Obligations.DecodeAndEncodeAgree : Prop :=
  ∀ (w : Word) (i : Instr), i.wellFormed = true → (decode w = .ok i ↔ encode i = w)

/-- R80, R81: a word decodes exactly when its fields are legal, and then to a command with that opcode and operand; any
other word, outside ERROR, raises IllegalCommand, and in ERROR every word but NOP and ABORT is ignored. -/
def Obligations.IllegalWordsRaiseIllegalCommand : Prop :=
  (∀ w : Word, (∃ i, decode w = .ok i) ↔
    (w.toNat % 2 ^ 8 ≤ 8 ∧ w.toNat / 2 ^ 16 = 0 ∧ (w.toNat % 2 ^ 8 = 5 ∨ w.toNat / 2 ^ 8 % 2 ^ 8 = 0))) ∧
  (∀ (w : Word) (i : Instr), decode w = .ok i → (opcode i).toNat = w.toNat % 2 ^ 8 ∧
    (immOf i).toNat = w.toNat / 2 ^ 8 % 2 ^ 8) ∧
  (∀ (s : State) (w : Word) (rest : List Move), s.agenda = .access (.write 0x000 .bits32 w) :: rest → s.busy = false →
    (∀ i, decode w ≠ .ok i) → s.phase ≠ .error →
    step s = .next { s with agenda := rest, err := .illegalCommand, phase := .error }) ∧
  (∀ (s : State) (w : Word) (rest : List Move), s.agenda = .access (.write 0x000 .bits32 w) :: rest → s.busy = false →
    s.phase = .error → w ≠ 0 → w ≠ 8 → step s = .next { s with agenda := rest })

/-- R82: words written out from the opcode map decode to the commands they stand for, and reserved ones to none. -/
def Obligations.OpcodeMapWordsDecode : Prop :=
  decodeTableWord 32 0x00000000 = some .nop ∧ decodeTableWord 32 0x00000001 = some .start ∧
  decodeTableWord 32 0x00000002 = some .header ∧ decodeTableWord 32 0x00000003 = some .loopext ∧
  decodeTableWord 32 0x00000004 = some .frame ∧ decodeTableWord 32 0x00009305 = some (.push 0x93) ∧
  decodeTableWord 32 0x00000006 = some .frameEnd ∧ decodeTableWord 32 0x00000007 = some .trailer ∧
  decodeTableWord 32 0x00000008 = some .abort ∧ decodeTableWord 32 0x00000009 = none ∧
  decodeTableWord 32 0x00010000 = none ∧ decodeTableWord 32 0x00000102 = none

/-! ## Sequencing -/

/-- R34, R200: a host write to CMD of a word that decodes runs that command, at the state with the write done; and the
word placed by withFetchWord is the next one run. -/
def Obligations.CmdWriteRunsDecodedCommand : Prop :=
  (∀ (s : State) (w : Word) (i : Instr) (rest : List Move),
    s.agenda = .access (.write 0x000 .bits32 w) :: rest → decode w = .ok i →
    step s = exec i { s with agenda := rest }) ∧
  (∀ (s : State) (i : Instr), step (s.withFetchWord 32 (encode i).toNat) = exec i s)

/-- R200 (code 5 of R220): outside ERROR a command in a phase that does not admit it raises SequenceError and does
nothing else. -/
def Obligations.OutOfPhaseRaisesSequenceError : Prop :=
  ∀ (i : Instr) (s : State), s.busy = false → s.phase ≠ .error → legalIn i s.phase = false →
    exec i s = .next { s with err := .sequenceError, phase := .error }

/-- R200, R261, R226 (1): no command and no host write is taken while BUSY = 1. -/
def Obligations.BusyBlockFaultsOnWrites : Prop :=
  (∀ (i : Instr) (s : State), s.busy = true → exec i s = .fault .hazard) ∧
  (∀ (s : State) (off : Offset) (v : Word) (rest : List Move), s.busy = true → off.toNat % 4 = 0 →
    s.agenda = .access (.write off .bits32 v) :: rest → step s = .fault .hazard) ∧
  (∀ (s : State) (rest : List Move), s.busy = true → s.agenda = .access (.read 0x004 .bits32) :: rest →
    step s = .next { s with agenda := rest, reads := s.reads ++ [s.statusWord] })

/-- R224: in ERROR every command but NOP and ABORT changes nothing, and register writes still store. -/
def Obligations.ErrorPhaseIgnoresCommands : Prop :=
  (∀ (i : Instr) (s : State), s.busy = false → s.phase = .error → i ≠ .nop → i ≠ .abort → exec i s = .next s) ∧
  (∀ (s : State) (w : Word) (rest : List Move), s.busy = false → s.phase = .error → w ≠ 0x00000000 → w ≠ 0x00000008 →
    s.agenda = .access (.write 0x000 .bits32 w) :: rest → step s = .next { s with agenda := rest }) ∧
  (∀ (s : State) (v : Word) (rest : List Move), s.busy = false → s.phase = .error →
    (s.agenda = .access (.write 0x008 .bits32 v) :: rest → step s = .next { s with agenda := rest, frameCount := v }) ∧
    (s.agenda = .access (.write 0x00C .bits32 v) :: rest → step s = .next { s with agenda := rest, delayCount := v }) ∧
    (s.agenda = .access (.write 0x010 .bits32 v) :: rest → step s = .next { s with agenda := rest, loopCount := v }) ∧
    (s.agenda = .access (.write 0x014 .bits32 v) :: rest → step s = .next { s with agenda := rest, palLen := v }) ∧
    (s.agenda = .access (.write 0x018 .bits32 v) :: rest → step s = .next { s with agenda := rest, frameMin := v }) ∧
    (s.agenda = .access (.write 0x01C .bits32 v) :: rest → step s = .next { s with agenda := rest, frameMax := v }) ∧
    (s.agenda = .access (.write 0x020 .bits32 v) :: rest →
      step s = .next { s with agenda := rest, delay := BitVec.ofNat 16 v.toNat }) ∧
    (∀ i : Fin 256, s.agenda = .access (.write (BitVec.ofNat 12 (0x400 + 4 * i.val)) .bits32 v) :: rest →
      ∃ m, step s = .next { s with agenda := rest, palette := m } ∧ m.readEntry i.val = some v))

/-- R225: from ERROR only ABORT and reset lead out, both to IDLE with ERR = 0. -/
def Obligations.OnlyAbortAndResetLeaveError : Prop :=
  ∀ s t : State, s.Inv → s.phase = .error → step s = .next t →
    (t.phase = .error ∧ t.err = s.err) ∨
    (t.phase = .idle ∧ t.err = .noError ∧ ∃ rest,
      s.agenda = .access (.write 0x000 .bits32 0x00000008) :: rest ∨ s.agenda = .reset :: rest)

/-- R201, the phase table: a command ends in a phase of its row, or is cut by a stall in the phase it began in; and a
command legal in its phase (START apart) reaches ERROR only if the sink fails a byte. -/
def Obligations.CommandsFollowPhaseTable : Prop :=
  ∀ (i : Instr) (s t : State), s.Inv → exec i s = .next t →
    (t.busy = false → t.phase ∈ phasesAfter s i) ∧ (t.busy = true → t.phase = s.phase) ∧
    (s.phase ≠ .error → legalIn i s.phase = true → i ≠ .start → s.sink.neverFails → t.phase ≠ .error) ∧
    (i = .start → s.phase = .idle ∨ s.phase = .done → (t.phase = .hdr ↔ StartPasses s))

/-- R220, R222, R223: a command that enters ERROR leaves a code of R220; with any code but WriteFailure it has emitted
no byte and changed nothing but ERR and PHASE. -/
def Obligations.ErrorsOtherThanWriteFailureAreAtomic : Prop :=
  ∀ (i : Instr) (s t : State), s.phase ≠ .error → s.busy = false → exec i s = .next t → t.phase = .error →
    t.err = .writeFailure ∨
    (t = { s with err := t.err, phase := .error } ∧
      (t.err = .sequenceError ∨ (i = .start ∧ (t.err = .frameDelayCountMismatch ∨ t.err = .emptyAnimation ∨
        t.err = .paletteLengthError))))

/-! ## START, TRAILER, NOP, ABORT -/

/-- R190, R191, R194 (with the values of R152): START's checks in order, and what it latches when they pass. -/
def Obligations.StartChecksThenLatches : Prop :=
  encode .start = 0x00000001 ∧
  (∀ s : State, s.busy = false → (s.phase = .idle ∨ s.phase = .done) →
    (s.frameCount ≠ s.delayCount → exec .start s = .next { s with err := .frameDelayCountMismatch, phase := .error }) ∧
    (s.frameCount = s.delayCount → s.frameCount = 0 →
      exec .start s = .next { s with err := .emptyAnimation, phase := .error }) ∧
    (s.frameCount = s.delayCount → s.frameCount ≠ 0 → (¬ ∃ k, 1 ≤ k ∧ k ≤ 8 ∧ s.palLen.toNat = 2 ^ k) →
      exec .start s = .next { s with err := .paletteLengthError, phase := .error }) ∧
    (∀ k, s.frameCount = s.delayCount → s.frameCount ≠ 0 → 1 ≤ k → k ≤ 8 → s.palLen.toNat = 2 ^ k →
      exec .start s = .next { s with
        fcL := s.frameCount
        loopL := if s.loopCount.toInt < 0 then 0 else BitVec.ofNat 16 s.loopCount.toNat
        palK := BitVec.ofNat 4 k
        mcs := BitVec.ofNat 4 (if k = 1 then 2 else k + 1)
        tflag := false, tidx := 0, tmulti := false, framesDone := 0, sbCnt := 0, phase := .hdr })) ∧
  (∀ s : State, s.busy = false → s.phase ≠ .idle → s.phase ≠ .done → s.phase ≠ .error →
    exec .start s = .next { s with err := .sequenceError, phase := .error })

/-- R152: MCS is the smallest number of bits that counts N + 2 codes. -/
def Obligations.StartComputesSmallestCodeSize : Prop :=
  ∀ s t : State, s.busy = false → exec .start s = .next t → s.phase ≠ .hdr → t.phase = .hdr →
    s.palLen.toNat + 2 ≤ 2 ^ t.mcs.toNat ∧ (∀ k < t.mcs.toNat, 2 ^ k < s.palLen.toNat + 2) ∧
    2 ≤ t.mcs.toNat ∧ t.mcs.toNat ≤ 9

/-- R192: TRAILER emits 0x3B and ends the stream; a failed byte leaves it without; in no other phase but ERROR does it
run. -/
def Obligations.TrailerEndsStream : Prop :=
  encode .trailer = 0x00000007 ∧
  (∀ s : State, s.busy = false → s.phase = .trl →
    (s.sink.answer = .accept →
      exec .trailer s = .next { s with out := s.out ++ [0x3B], sink := s.sink.after 1, phase := .done }) ∧
    (s.sink.answer = .fail →
      exec .trailer s = .next { s with sink := s.sink.after 1, err := .writeFailure, phase := .error })) ∧
  (∀ s t : State, s.busy = false → s.phase = .trl → s.err = .noError → s.tmulti = false → s.sink.answer = .accept →
    exec .trailer s = .next t → t.statusWord = 0x00000006) ∧
  (∀ s : State, s.busy = false → s.phase ≠ .trl → s.phase ≠ .error →
    exec .trailer s = .next { s with err := .sequenceError, phase := .error })

/-- R193: NOP does nothing in any phase; a word with opcode 0 and any other bit set is illegal. -/
def Obligations.NopChangesNothing : Prop :=
  (∀ s : State, s.busy = false → exec .nop s = .next s) ∧ encode .nop = 0x00000000 ∧
  (∀ w : Word, w.toNat % 2 ^ 8 = 0 → w ≠ 0 → ∀ i, decode w ≠ .ok i)

/-- R195: ABORT goes to IDLE from every phase, clears ERR, TMULTI and SB_CNT, emits nothing and keeps the latches; no
other command leaves ERROR. -/
def Obligations.AbortReturnsToIdle : Prop :=
  encode .abort = 0x00000008 ∧
  (∀ s : State, s.busy = false →
    exec .abort s = .next { s with phase := .idle, err := .noError, tmulti := false, sbCnt := 0 }) ∧
  (∀ s t : State, exec .abort s = .next t → t.statusWord = 0) ∧
  (∀ (i : Instr) (s t : State), s.phase = .error → exec i s = .next t → i ≠ .abort → t.phase = .error)

/-! ## HEADER and LOOPEXT -/

/-- R120 to R125, R86 to R89: HEADER's bytes, the transparency it latches, and the phase it leaves. The flags start as
START left them (Obligations.StepKeepsInvariant, its clauses `fresh` and `index`). -/
def Obligations.HeaderEmitsTableAndLatchesTransparency : Prop :=
  ∀ (s : State) (k : Nat) (es : List Word), s.busy = false → s.phase = .hdr → 1 ≤ k → k ≤ 8 → s.palK.toNat = k →
    es.length = 2 ^ k → (∀ (i : Nat) (h : i < es.length), s.palette.readEntry i = some es[i]) →
    s.tflag = false → s.tidx = 0 → s.tmulti = false → s.sink.accepts (13 + 3 * 2 ^ k) →
    exec .header s = .next { s with
      out := s.out ++ headerStream s.frameMax k es
      sink := s.sink.after (13 + 3 * 2 ^ k)
      tflag := es.any translucent
      tidx := firstTranslucent es
      tmulti := decide (2 ≤ es.countP translucent)
      phase := if 1 < s.fcL.toNat then .loop else .frm }

/-- R126, R124: when the sink fails byte j of HEADER, the bytes before it stay, and the flags tell of the entries whose
three bytes were all accepted. -/
def Obligations.HeaderWriteFailureKeepsPrecedingBytes : Prop :=
  ∀ (s : State) (k : Nat) (es : List Word) (j : Nat), s.busy = false → s.phase = .hdr → 1 ≤ k → k ≤ 8 →
    s.palK.toNat = k → es.length = 2 ^ k → (∀ (i : Nat) (h : i < es.length), s.palette.readEntry i = some es[i]) →
    s.tflag = false → s.tidx = 0 → s.tmulti = false → j < 13 + 3 * 2 ^ k → s.sink.failsAt j →
    exec .header s = .next { s with
      out := s.out ++ (headerStream s.frameMax k es).take j
      sink := s.sink.after (j + 1)
      tflag := (es.take ((j - 13) / 3)).any translucent
      tidx := firstTranslucent (es.take ((j - 13) / 3))
      tmulti := decide (2 ≤ (es.take ((j - 13) / 3)).countP translucent)
      err := .writeFailure
      phase := .error }

/-- R40, R121, R230: HEADER stops the model at the first entry never written since reset, once it comes to it. -/
def Obligations.HeaderFaultsOnUnwrittenEntry : Prop :=
  ∀ (s : State) (n : Nat), s.busy = false → s.phase = .hdr → n < 2 ^ s.palK.toNat →
    (∀ i < n, (s.palette.readEntry i).isSome) → s.palette.readEntry n = none → s.sink.accepts (13 + 3 * n) →
    exec .header s = .fault .unwrittenPalette

/-- R140, R142, R90: the 19 bytes of LOOPEXT, or those before the one the sink fails. -/
def Obligations.LoopextEmitsNetscapeExtension : Prop :=
  encode .loopext = 0x00000003 ∧
  (∀ s : State, s.busy = false → s.phase = .loop → s.sink.accepts 19 →
    exec .loopext s = .next { s with
      out := s.out ++ loopStream s.loopL, sink := s.sink.after 19, phase := .frm }) ∧
  (∀ (s : State) (j : Nat), s.busy = false → s.phase = .loop → j < 19 → s.sink.failsAt j →
    exec .loopext s = .next { s with
      out := s.out ++ (loopStream s.loopL).take j, sink := s.sink.after (j + 1)
      err := .writeFailure, phase := .error }) ∧
  (∀ s : State, s.busy = false → s.phase ≠ .loop → s.phase ≠ .error →
    exec .loopext s = .next { s with err := .sequenceError, phase := .error })

/-! ## FRAME, PUSH, FRAME_END -/

/-- R150 to R153, R91 to R93: the 19 bytes of FRAME, with every register as it stands when FRAME runs. -/
def Obligations.FrameEmitsFrameHeader : Prop :=
  ∀ s : State, s.busy = false → s.phase = .frm → s.sink.accepts 19 →
    exec .frame s = .next { s with
      out := s.out ++ frameStream s, sink := s.sink.after 19, sbCnt := 0, phase := .data }

/-- R154: a failed byte of FRAME leaves SB_CNT as it was and enters ERROR. -/
def Obligations.FrameWriteFailureKeepsFill : Prop :=
  ∀ (s : State) (j : Nat), s.busy = false → s.phase = .frm → j < 19 → s.sink.failsAt j →
    exec .frame s = .next { s with
      out := s.out ++ (frameStream s).take j, sink := s.sink.after (j + 1), err := .writeFailure, phase := .error }

/-- R170, R171: a PUSH that does not fill the buffer emits nothing and cannot fail; the 255th emits the block. -/
def Obligations.PushBuffersOrEmitsFullBlock : Prop :=
  (∀ (s : State) (b : Byte), s.busy = false → s.phase = .data → s.sbCnt.toNat < 254 →
    exec (.push b) s = .next { s with
      sbBuf := s.sbBuf.setIfInBounds s.sbCnt.toNat b, sbCnt := BitVec.ofNat 8 (s.sbCnt.toNat + 1) }) ∧
  (∀ (s : State) (b : Byte), s.busy = false → s.phase = .data → s.sbCnt.toNat = 254 → s.sink.accepts 256 →
    exec (.push b) s = .next { s with
      out := s.out ++ fullBlock s b, sink := s.sink.after 256
      sbBuf := s.sbBuf.setIfInBounds 254 b, sbCnt := 0 })

/-- R174: a failed byte of a full block leaves SB_CNT at 255, until ABORT; a PUSH that does not fill the buffer cannot
fail. -/
def Obligations.PushWriteFailureLeavesFillFull : Prop :=
  (∀ (s : State) (b : Byte) (j : Nat), s.busy = false → s.phase = .data → s.sbCnt.toNat = 254 → j < 256 →
    s.sink.failsAt j →
    ∃ t, exec (.push b) s = .next t ∧ t = { s with
        out := s.out ++ (fullBlock s b).take j, sink := s.sink.after (j + 1)
        sbBuf := s.sbBuf.setIfInBounds 254 b, sbCnt := 255, err := .writeFailure, phase := .error } ∧
      ∃ u, exec .abort t = .next u ∧ u.sbCnt = 0) ∧
  (∀ (s : State) (b : Byte), s.busy = false → s.phase = .data → s.sbCnt.toNat < 254 →
    ∃ t, exec (.push b) s = .next t ∧ t.phase = .data ∧ t.err = s.err ∧ t.out = s.out ∧ t.sink = s.sink)

/-- R156, R157, R172: FRAME_END flushes the held bytes, ends the image data, counts the frame and chooses the phase. -/
def Obligations.FrameEndFlushesAndCounts : Prop :=
  ∀ s : State, s.busy = false → s.phase = .data → s.framesDone.toNat < s.fcL.toNat →
    s.sink.accepts (flushStream s).length →
    (flushStream s).length = (if s.sbCnt = 0 then 1 else s.sbCnt.toNat + 2) ∧
    exec .frameEnd s = .next { s with
      out := s.out ++ flushStream s, sink := s.sink.after (flushStream s).length, sbCnt := 0
      framesDone := BitVec.ofNat 32 (s.framesDone.toNat + 1)
      phase := if s.framesDone.toNat + 1 < s.fcL.toNat then .frm else .trl }

/-- R158: a failed byte of FRAME_END leaves the frame uncounted; SB_CNT is 0 once the flush was accepted whole. -/
def Obligations.FrameEndWriteFailureDoesNotCount : Prop :=
  ∀ (s : State) (j : Nat), s.busy = false → s.phase = .data → j < (flushStream s).length → s.sink.failsAt j →
    exec .frameEnd s = .next { s with
      out := s.out ++ (flushStream s).take j, sink := s.sink.after (j + 1)
      sbCnt := if j + 1 = (flushStream s).length then 0 else s.sbCnt
      err := .writeFailure, phase := .error }

/-- R94, R173: bytes pushed between FRAME and FRAME_END leave as sub-blocks of 255 and one last shorter block, in push
order, none lost, none repeated, then the terminator. -/
def Obligations.PushedBytesLeaveAsSubBlocks : Prop :=
  ∀ (s : State) (bs : List Byte), s.busy = false → s.phase = .data → s.sbCnt = 0 →
    s.sink.accepts (bs.length + (bs.length + 254) / 255 + 1) →
    ∃ t, execAll (bs.map .push ++ [.frameEnd]) s = .next t ∧ t.out = s.out ++ imageData bs ∧ t.sbCnt = 0 ∧
      t.framesDone = s.framesDone + 1 ∧ (imageData bs).length = bs.length + (bs.length + 254) / 255 + 1

/-- R202: commands run one after the other from a fresh stream to its end leave exactly one stream in the shape of R96:
header, loop extension iff there are several frames, FC_L frames, trailer. The host writes no register between the
commands here, so every frame has the same header; the sink accepts every byte. -/
def Obligations.RunToDoneIsOneStream : Prop :=
  ∀ (s t : State) (es : List Word) (is : List Instr), s.Inv → s.busy = false → s.phase = .hdr →
    s.sink = { script := [], rest := .accept } → es.length = 2 ^ s.palK.toNat →
    (∀ (i : Nat) (h : i < es.length), s.palette.readEntry i = some es[i]) →
    (∀ i ∈ is, i ≠ .start ∧ i ≠ .abort) → execAll is s = .next t → t.phase = .done →
    ∃ datas : List (List Byte), datas.length = s.fcL.toNat ∧
      t.out = s.out ++ headerStream s.frameMax s.palK.toNat es ++ (if 1 < s.fcL.toNat then loopStream s.loopL else [])
        ++ datas.flatMap (fun d => frameStream t ++ imageData d) ++ [0x3B]

/-! ## What commands leave unchanged -/

/-- R64, R73, R83: no command writes a host register or a palette byte, or touches what is the host's; the output only
grows. -/
def Obligations.CommandsLeaveHostSideUnchanged : Prop :=
  (∀ (i : Instr) (s t : State), exec i s = .next t → SameHostSide s t ∧ ∃ bs, t.out = s.out ++ bs) ∧
  (∀ s t : State, s.agenda = [] → step s = .next t → SameHostSide s t ∧ ∃ bs, t.out = s.out ++ bs)

/-- The frame of each command on the block's own state: what it leaves unchanged when it gives a next state, in every
phase and whether it completes, fails or is cut by a stall (the "flags written" lines of R120, R140, R150, R156, R170,
R190, R192, and R193, R195). -/
def Obligations.CommandsChangeOnlyWhatTheirRulesName : Prop :=
  ∀ (i : Instr) (s t : State), exec i s = .next t →
    (i ≠ .start → t.fcL = s.fcL ∧ t.loopL = s.loopL ∧ t.palK = s.palK ∧ t.mcs = s.mcs) ∧
    (i ≠ .start → i ≠ .header → t.tflag = s.tflag ∧ t.tidx = s.tidx) ∧
    (i ≠ .start → i ≠ .header → i ≠ .abort → t.tmulti = s.tmulti) ∧
    (i ≠ .start → i ≠ .frameEnd → t.framesDone = s.framesDone) ∧
    ((∀ b, i ≠ .push b) → t.sbBuf = s.sbBuf) ∧
    ((∀ b, i ≠ .push b) → i ≠ .start → i ≠ .frame → i ≠ .frameEnd → i ≠ .abort → t.sbCnt = s.sbCnt) ∧
    (i ≠ .abort → t.err = s.err ∨ (t.phase = .error ∧ t.err ≠ .noError)) ∧
    (i = .nop ∨ i = .start ∨ i = .abort → t.out = s.out ∧ t.sink = s.sink ∧ t.pending = s.pending) ∧
    (t.busy = true → t.pending ≠ [])

/-! ## The sink and stalls -/

/-- R66: the answers to the byte a waiting command has on offer: accepted, offered again, or WriteFailure. -/
def Obligations.OfferedByteIsAnswered : Prop :=
  ∀ (s : State) (b : Byte) (rest : List CmdStep), s.busy = true → s.pending = .emit b :: rest →
    (s.sink.answer = .accept →
      blockTurn s = blockTurn { s with out := s.out ++ [b], sink := s.sink.after 1, pending := rest }) ∧
    (s.sink.answer = .stall → blockTurn s = .next { s with sink := s.sink.after 1 }) ∧
    (s.sink.answer = .fail → blockTurn s = .next { s with
      sink := s.sink.after 1, pending := [], busy := false, err := .writeFailure, phase := .error })

/-- R66, R264: a stall only delays. A command cut by a stall, then given one turn, ends as the same command with a sink
that does not stall there. -/
def Obligations.StallOnlyDelaysCommand : Prop :=
  ∀ (i : Instr) (s t : State) (before later : List SinkAnswer), s.busy = false → s.pending = [] →
    s.sink.script = before ++ .stall :: later → (∀ a ∈ before, a = .accept) → exec i s = .next t → t.busy = true →
    blockTurn t = exec i { s with sink := { s.sink with script := before ++ later } }

/-- R262: a sink that stalls for ever keeps BUSY = 1 until reset, whatever the host does. -/
def Obligations.StalledSinkKeepsBusy : Prop :=
  ∀ (s t : State) (b : Byte) (rest : List CmdStep), s.busy = true → s.pending = .emit b :: rest →
    s.sink = { script := [], rest := .stall } → (∀ moves, s.agenda ≠ .reset :: moves) → step s = .next t →
    t.busy = true ∧ t.pending = s.pending ∧ t.sink = s.sink ∧ t.out = s.out ∧ t.phase = s.phase

/-- R65: the output stream only grows, and only a command's Emit makes it grow: with no command running and none
issued it stays. -/
def Obligations.OutputStreamOnlyGrows : Prop :=
  (∀ s t : State, step s = .next t → ∃ bs, t.out = s.out ++ bs) ∧
  (∀ s t : State, s.busy = false → (∀ w rest, s.agenda ≠ .access (.write 0x000 .bits32 w) :: rest) → step s = .next t →
    t.out = s.out)

/-! ## The host bus -/

/-- R61, R230: an access that is not 32 bits wide, or not at a multiple of 4, is the model fault BusAccess. That it is so
also for a write while BUSY = 1, and not Hazard, is the model's deduction from the order of R61's pseudocode (log 11,
DEDUCED). -/
def Obligations.MisalignedOrNarrowAccessFaults : Prop :=
  ∀ (s : State) (a : Access) (rest : List Move), s.agenda = .access a :: rest → a.wellFormed = false →
    step s = .fault .busAccess

/-- R33 to R46, R61, R62: what a 32-bit read returns at each offset, and that it changes nothing in the block. -/
def Obligations.ReadsReturnRegisterTable : Prop :=
  ∀ (s : State) (off : Offset) (rest : List Move) (v : Word), off.toNat % 4 = 0 →
    s.agenda = .access (.read off .bits32) :: rest →
    ((off = 0x000 ∧ v = 0) ∨
     (off = 0x004 ∧ v = BitVec.ofNat 32 (s.phase.code.toNat + 8 * s.busy.toNat + 16 * s.err.code.toNat
        + 256 * s.tmulti.toNat)) ∨
     (off = 0x008 ∧ v = s.frameCount) ∨ (off = 0x00C ∧ v = s.delayCount) ∨ (off = 0x010 ∧ v = s.loopCount) ∨
     (off = 0x014 ∧ v = s.palLen) ∨ (off = 0x018 ∧ v = s.frameMin) ∨ (off = 0x01C ∧ v = s.frameMax) ∨
     (off = 0x020 ∧ v = BitVec.ofNat 32 s.delay.toNat) ∨
     (off = 0x024 ∧ v = BitVec.ofNat 32 (s.tidx.toNat + 256 * s.tflag.toNat)) ∨
     (off = 0x028 ∧ v = BitVec.ofNat 32 (s.mcs.toNat + 16 * s.palK.toNat)) ∨
     (off = 0x02C ∧ v = BitVec.ofNat 32 s.loopL.toNat) ∨ (off = 0x030 ∧ v = s.framesDone) ∨
     (off = 0x034 ∧ v = BitVec.ofNat 32 s.sbCnt.toNat) ∨
     (0x038 ≤ off.toNat ∧ off.toNat < 0x400 ∧ v = 0) ∨ (0x800 ≤ off.toNat ∧ v = 0) ∨
     (0x400 ≤ off.toNat ∧ off.toNat < 0x800 ∧ s.palette.readEntry ((off.toNat - 0x400) / 4) = some v)) →
    step s = .next { s with agenda := rest, reads := s.reads ++ [v] }

/-- R40, R230: a read of a palette entry never written since reset is the model fault UnwrittenPalette. -/
def Obligations.ReadOfUnwrittenEntryFaults : Prop :=
  ∀ (s : State) (off : Offset) (rest : List Move), off.toNat % 4 = 0 → 0x400 ≤ off.toNat → off.toNat < 0x800 →
    s.agenda = .access (.read off .bits32) :: rest → s.palette.readEntry ((off.toNat - 0x400) / 4) = none →
    step s = .fault .unwrittenPalette

/-- R36 to R41, R61, R62: what a 32-bit write stores at each offset but CMD and the palette, while BUSY = 0. -/
def Obligations.WritesStoreRegisterTable : Prop :=
  ∀ (s : State) (off : Offset) (v : Word) (rest : List Move), s.busy = false → off.toNat % 4 = 0 →
    s.agenda = .access (.write off .bits32 v) :: rest →
    (off = 0x008 → step s = .next { s with agenda := rest, frameCount := v }) ∧
    (off = 0x00C → step s = .next { s with agenda := rest, delayCount := v }) ∧
    (off = 0x010 → step s = .next { s with agenda := rest, loopCount := v }) ∧
    (off = 0x014 → step s = .next { s with agenda := rest, palLen := v }) ∧
    (off = 0x018 → step s = .next { s with agenda := rest, frameMin := v }) ∧
    (off = 0x01C → step s = .next { s with agenda := rest, frameMax := v }) ∧
    (off = 0x020 → step s = .next { s with agenda := rest, delay := BitVec.ofNat 16 (v.toNat % 2 ^ 16) }) ∧
    (off = 0x004 ∨ (0x024 ≤ off.toNat ∧ off.toNat < 0x400) ∨ 0x800 ≤ off.toNat →
      step s = .next { s with agenda := rest })

/-- R40, R61: a write to PAL[i] stores the entry, whose read then returns it, and leaves every byte of the palette
outside the entry's four, and all else, as it was. -/
def Obligations.PaletteWriteStoresOneEntry : Prop :=
  ∀ (s : State) (i : Fin 256) (v : Word) (rest : List Move), s.busy = false →
    s.agenda = .access (.write (BitVec.ofNat 12 (0x400 + 4 * i.val)) .bits32 v) :: rest →
    ∃ m : Memory, step s = .next { s with agenda := rest, palette := m } ∧ m.readEntry i.val = some v ∧
      (∀ a, a < entryOffset i.val ∨ entryOffset i.val + 4 ≤ a → m.readByte a = s.palette.readByte a) ∧
      (s.palette.wf → m.wf)

/-- R63: reads never change the block, and a write to any offset but CMD only stores a value: it emits nothing, issues
nothing and leaves the block's own state. -/
def Obligations.OnlyCmdWritesHaveSideEffects : Prop :=
  (∀ (s t : State) (off : Offset) (width : Width) (rest : List Move),
    s.agenda = .access (.read off width) :: rest → step s = .next t →
    ∃ v, t = { s with agenda := rest, reads := s.reads ++ [v] }) ∧
  (∀ (s t : State) (off : Offset) (width : Width) (v : Word) (rest : List Move), off ≠ 0x000 →
    s.agenda = .access (.write off width v) :: rest → step s = .next t →
    t = { s with agenda := rest, frameCount := t.frameCount, delayCount := t.delayCount, loopCount := t.loopCount
                 palLen := t.palLen, frameMin := t.frameMin, frameMax := t.frameMax, delay := t.delay
                 palette := t.palette })

/-- R98: WAIT reads STATUS and ends exactly when BUSY = 0; while BUSY = 1 the block goes on. -/
def Obligations.WaitPollsUntilNotBusy : Prop :=
  ∀ (s : State) (rest : List Move), s.agenda = .wait :: rest →
    (s.busy = false → step s = .next { s with agenda := rest, reads := s.reads ++ [s.statusWord] }) ∧
    (s.busy = true → step s = blockTurn { s with reads := s.reads ++ [s.statusWord] })

/-- R98 (SETFRAME): three moves store the bounds, two to a register, and the delay, and change nothing else. -/
def Obligations.SetFrameStoresBoundsAndDelay : Prop :=
  ∀ (s : State) (minx miny maxx maxy d : Nat) (rest : List Move), s.busy = false →
    (HostLine.setFrame minx miny maxx maxy d).wellFormed = true →
    s.agenda = (HostLine.setFrame minx miny maxx maxy d).moves ++ rest →
    ∃ t, Steps 3 s t ∧
      t = { s with agenda := rest, frameMin := t.frameMin, frameMax := t.frameMax, delay := t.delay } ∧
      t.minX.toNat = minx ∧ t.minY.toNat = miny ∧ t.maxX.toNat = maxx ∧ t.maxY.toNat = maxy ∧
      t.delay.toNat = d % 2 ^ 16

/-- R98 (BEGIN): six moves store the four counts and run START to its end, which is a stream with the frame count and
palette length written when START's checks admit them (R190). -/
def Obligations.BeginOpensStream : Prop :=
  ∀ (s : State) (f dc loop n : Nat) (rest : List Move), s.busy = false → s.phase = .idle ∨ s.phase = .done →
    (HostLine.beginStream f dc loop n).wellFormed = true →
    s.agenda = (HostLine.beginStream f dc loop n).moves ++ rest →
    ∃ t, Steps 6 s t ∧ t.agenda = rest ∧ t.busy = false ∧ t.out = s.out ∧ t.frameCount.toNat = f ∧
      t.delayCount.toNat = dc ∧ t.loopCount.toNat = loop ∧ t.palLen.toNat = n ∧
      (∀ k, f = dc → f ≠ 0 → 1 ≤ k → k ≤ 8 → n = 2 ^ k →
        t.phase = .hdr ∧ t.err = s.err ∧ t.fcL.toNat = f ∧ t.palK.toNat = k ∧ t.framesDone = 0) ∧
      (f ≠ dc → t.phase = .error ∧ t.err = .frameDelayCountMismatch)

/-- R99, R161: the two looks of the host's EncodeAll. The look at STATUS stops the call in ERROR, going on at its end
(log 9), and else goes on; the look at INFO forwards the bytes compressed for INFO[3:0], each with a PUSH. -/
def Obligations.HostLooksAtStatusAndInfo : Prop :=
  (∀ (s : State) (rest : List Move), s.agenda = .checkError :: rest →
    (s.phase ≠ .error → step s = .next { s with agenda := rest, reads := s.reads ++ [s.statusWord] }) ∧
    (∀ inside after, s.phase = .error → (∀ m ∈ inside, m ≠ .callEnd ∧ m ≠ .turn ∧ m ≠ .reset) →
      rest = inside ++ .callEnd :: after →
      step s = .next { s with agenda := after, reads := s.reads ++ [s.statusWord] })) ∧
  (∀ (s : State) (compress : BitVec 4 → List Byte → List Byte) (indices : List Byte) (rest : List Move),
    s.agenda = compressedMove compress indices :: rest →
    step s = .next { s with
      agenda := (compress s.mcs indices).flatMap (fun b =>
        [.access (.write 0x000 .bits32 (encode (.push b))), .wait, .checkError]) ++ rest
      reads := s.reads ++ [s.infoWord] })

/-- R99 (with R190): when BEGIN fails, EncodeAll stops with its error: no byte is emitted, the bounds and the delay are as
they were before the call, and what follows the call comes next. -/
def Obligations.EncodeAllStopsAfterFailedBegin : Prop :=
  ∀ (s : State) (compress : BitVec 4 → List Byte → List Byte) (frames : List HostFrame) (delays : List Nat)
    (loopCount : Int) (rest : List Move) (code : ErrKind),
    s.busy = false → s.phase = .idle ∨ s.phase = .done → frames.length < 2 ^ 32 → delays.length < 2 ^ 32 →
    (firstPalette frames).length < 2 ^ 32 → beginError frames delays = some code →
    s.agenda = encodeAllMoves compress frames delays loopCount ++ rest →
    ∃ n t, Steps n s t ∧ t.agenda = rest ∧ t.phase = .error ∧ t.err = code ∧ t.busy = false ∧ t.out = s.out ∧
      t.frameMin = s.frameMin ∧ t.frameMax = s.frameMax ∧ t.delay = s.delay ∧ t.reads.getLast? = some t.statusWord

/-- R99, R96: with counts and a palette that START admits and a sink that accepts, EncodeAll ends in DONE and appends one
stream: header with frame 0's palette and maximum bound, loop extension iff there are several frames, each frame with its
own bounds, delay and compressed bytes, trailer. -/
def Obligations.EncodeAllWritesOneStream : Prop :=
  ∀ (s : State) (compress : BitVec 4 → List Byte → List Byte) (frames : List HostFrame) (delays : List Nat)
    (loopCount : Int) (rest : List Move) (k : Nat),
    s.busy = false → s.phase = .idle ∨ s.phase = .done → frames.length < 2 ^ 32 → frames.length = delays.length →
    frames ≠ [] → 1 ≤ k → k ≤ 8 → (firstPalette frames).length = 2 ^ k →
    -(2 ^ 31) ≤ loopCount → loopCount < 2 ^ 31 → s.sink = { script := [], rest := .accept } →
    s.agenda = encodeAllMoves compress frames delays loopCount ++ rest →
    ∃ n t, Steps n s t ∧ t.agenda = rest ∧ t.phase = .done ∧ t.err = s.err ∧ t.busy = false ∧
      t.fcL.toNat = frames.length ∧ t.framesDone = t.fcL ∧
      t.loopL = (if loopCount < 0 then 0 else BitVec.ofInt 16 loopCount) ∧
      t.mcs = BitVec.ofNat 4 (if k = 1 then 2 else k + 1) ∧
      t.tflag = (firstPalette frames).any translucent ∧ t.tidx = firstTranslucent (firstPalette frames) ∧
      t.out = s.out ++ headerStream (canvas frames) k (firstPalette frames)
        ++ (if 1 < frames.length then loopStream t.loopL else [])
        ++ (frames.zip delays).flatMap (fun p => encodedFrame compress t p.1 p.2) ++ [0x3B]

/-! ## Reset and the invariant -/

/-- R48, R250, R252: the values after reset; no palette entry has a value, and nothing runs. (The zeros of SB_BUF and the
outside agents' fields are the model's own, log 1 to log 3, and are not stated.) -/
def Obligations.ResetStateIsIdleAndZero : Prop :=
  State.reset.phase = .idle ∧ State.reset.busy = false ∧ State.reset.err = .noError ∧ State.reset.tmulti = false ∧
  State.reset.tflag = false ∧ State.reset.tidx = 0 ∧ State.reset.fcL = 0 ∧ State.reset.loopL = 0 ∧
  State.reset.palK = 0 ∧ State.reset.mcs = 0 ∧ State.reset.framesDone = 0 ∧ State.reset.sbCnt = 0 ∧
  State.reset.frameCount = 0 ∧ State.reset.delayCount = 0 ∧ State.reset.loopCount = 0 ∧ State.reset.palLen = 0 ∧
  State.reset.frameMin = 0 ∧ State.reset.frameMax = 0 ∧ State.reset.delay = 0 ∧ State.reset.pending = [] ∧
  (∀ i, State.reset.palette.readEntry i = none) ∧ State.reset.statusWord = 0x00000000

/-- R250, R251: reset at any moment, a command cut by a stall included, gives the block its reset values, emits nothing,
and keeps the bytes the sink has accepted. That it also keeps the sink's answers to come (log 1), the words the host has
read and the moves to come (log 2) is the model's own choice (DESIGN CHOICE). -/
def Obligations.ResetStopsCommandAndKeepsOutput : Prop :=
  ∀ (s : State) (rest : List Move), s.agenda = .reset :: rest →
    ∃ t, step s = .next t ∧ t.out = s.out ∧ t.busy = false ∧ t.pending = [] ∧ t.phase = .idle ∧ t.err = .noError ∧
      t.tmulti = false ∧ t.tflag = false ∧ t.tidx = 0 ∧ t.fcL = 0 ∧ t.loopL = 0 ∧ t.palK = 0 ∧ t.mcs = 0 ∧
      t.framesDone = 0 ∧ t.sbCnt = 0 ∧ t.frameCount = 0 ∧ t.delayCount = 0 ∧ t.loopCount = 0 ∧ t.palLen = 0 ∧
      t.frameMin = 0 ∧ t.frameMax = 0 ∧ t.delay = 0 ∧ (∀ i, t.palette.readEntry i = none) ∧
      t.agenda = rest ∧ t.sink = s.sink ∧ t.reads = s.reads

/-- The invariant holds after reset (R48, R250). -/
def Obligations.ResetMeetsInvariant : Prop := State.reset.Inv

/-- Every step keeps the invariant: canonical palette, ERR and ERROR together, BUSY and the waiting command together,
legal palette length and code size in a stream, FRAMES_DONE never above FC_L (R31), the frame count each phase implies
(R157, R201), and a chunker of at most 254 bytes between commands (R32). -/
def Obligations.StepKeepsInvariant : Prop :=
  ∀ s t : State, s.Inv → step s = .next t → t.Inv
end

