-- ==== Sys2Proof/Laws/State.lean ====
section
/-! SUPPORT. One lemma per field and named state update, true by unfolding the update once: later proofs never unfold a
record update. -/

namespace Sys2Proof.Machine

@[simp] theorem State.answered_phase (s : State) : s.answered.phase = s.phase := rfl
@[simp] theorem State.answered_busy (s : State) : s.answered.busy = s.busy := rfl
@[simp] theorem State.answered_err (s : State) : s.answered.err = s.err := rfl
@[simp] theorem State.answered_tmulti (s : State) : s.answered.tmulti = s.tmulti := rfl
@[simp] theorem State.answered_fcL (s : State) : s.answered.fcL = s.fcL := rfl
@[simp] theorem State.answered_loopL (s : State) : s.answered.loopL = s.loopL := rfl
@[simp] theorem State.answered_palK (s : State) : s.answered.palK = s.palK := rfl
@[simp] theorem State.answered_mcs (s : State) : s.answered.mcs = s.mcs := rfl
@[simp] theorem State.answered_tflag (s : State) : s.answered.tflag = s.tflag := rfl
@[simp] theorem State.answered_tidx (s : State) : s.answered.tidx = s.tidx := rfl
@[simp] theorem State.answered_framesDone (s : State) : s.answered.framesDone = s.framesDone := rfl
@[simp] theorem State.answered_sbBuf (s : State) : s.answered.sbBuf = s.sbBuf := rfl
@[simp] theorem State.answered_sbCnt (s : State) : s.answered.sbCnt = s.sbCnt := rfl
@[simp] theorem State.answered_frameCount (s : State) : s.answered.frameCount = s.frameCount := rfl
@[simp] theorem State.answered_delayCount (s : State) : s.answered.delayCount = s.delayCount := rfl
@[simp] theorem State.answered_loopCount (s : State) : s.answered.loopCount = s.loopCount := rfl
@[simp] theorem State.answered_palLen (s : State) : s.answered.palLen = s.palLen := rfl
@[simp] theorem State.answered_frameMin (s : State) : s.answered.frameMin = s.frameMin := rfl
@[simp] theorem State.answered_frameMax (s : State) : s.answered.frameMax = s.frameMax := rfl
@[simp] theorem State.answered_delay (s : State) : s.answered.delay = s.delay := rfl
@[simp] theorem State.answered_palette (s : State) : s.answered.palette = s.palette := rfl
@[simp] theorem State.answered_pending (s : State) : s.answered.pending = s.pending := rfl
@[simp] theorem State.answered_out (s : State) : s.answered.out = s.out := rfl
@[simp] theorem State.answered_sink (s : State) : s.answered.sink = s.sink.next := rfl
@[simp] theorem State.answered_reads (s : State) : s.answered.reads = s.reads := rfl
@[simp] theorem State.answered_agenda (s : State) : s.answered.agenda = s.agenda := rfl

@[simp] theorem State.append_phase (s : State) (b : Byte) : (s.append b).phase = s.phase := rfl
@[simp] theorem State.append_busy (s : State) (b : Byte) : (s.append b).busy = s.busy := rfl
@[simp] theorem State.append_err (s : State) (b : Byte) : (s.append b).err = s.err := rfl
@[simp] theorem State.append_tmulti (s : State) (b : Byte) : (s.append b).tmulti = s.tmulti := rfl
@[simp] theorem State.append_fcL (s : State) (b : Byte) : (s.append b).fcL = s.fcL := rfl
@[simp] theorem State.append_loopL (s : State) (b : Byte) : (s.append b).loopL = s.loopL := rfl
@[simp] theorem State.append_palK (s : State) (b : Byte) : (s.append b).palK = s.palK := rfl
@[simp] theorem State.append_mcs (s : State) (b : Byte) : (s.append b).mcs = s.mcs := rfl
@[simp] theorem State.append_tflag (s : State) (b : Byte) : (s.append b).tflag = s.tflag := rfl
@[simp] theorem State.append_tidx (s : State) (b : Byte) : (s.append b).tidx = s.tidx := rfl
@[simp] theorem State.append_framesDone (s : State) (b : Byte) : (s.append b).framesDone = s.framesDone := rfl
@[simp] theorem State.append_sbBuf (s : State) (b : Byte) : (s.append b).sbBuf = s.sbBuf := rfl
@[simp] theorem State.append_sbCnt (s : State) (b : Byte) : (s.append b).sbCnt = s.sbCnt := rfl
@[simp] theorem State.append_frameCount (s : State) (b : Byte) : (s.append b).frameCount = s.frameCount := rfl
@[simp] theorem State.append_delayCount (s : State) (b : Byte) : (s.append b).delayCount = s.delayCount := rfl
@[simp] theorem State.append_loopCount (s : State) (b : Byte) : (s.append b).loopCount = s.loopCount := rfl
@[simp] theorem State.append_palLen (s : State) (b : Byte) : (s.append b).palLen = s.palLen := rfl
@[simp] theorem State.append_frameMin (s : State) (b : Byte) : (s.append b).frameMin = s.frameMin := rfl
@[simp] theorem State.append_frameMax (s : State) (b : Byte) : (s.append b).frameMax = s.frameMax := rfl
@[simp] theorem State.append_delay (s : State) (b : Byte) : (s.append b).delay = s.delay := rfl
@[simp] theorem State.append_palette (s : State) (b : Byte) : (s.append b).palette = s.palette := rfl
@[simp] theorem State.append_pending (s : State) (b : Byte) : (s.append b).pending = s.pending := rfl
@[simp] theorem State.append_out (s : State) (b : Byte) : (s.append b).out = s.out ++ [b] := rfl
@[simp] theorem State.append_sink (s : State) (b : Byte) : (s.append b).sink = s.sink := rfl
@[simp] theorem State.append_reads (s : State) (b : Byte) : (s.append b).reads = s.reads := rfl
@[simp] theorem State.append_agenda (s : State) (b : Byte) : (s.append b).agenda = s.agenda := rfl

@[simp] theorem State.beginCommand_phase (s : State) : s.beginCommand.phase = s.phase := rfl
@[simp] theorem State.beginCommand_busy (s : State) : s.beginCommand.busy = true := rfl
@[simp] theorem State.beginCommand_err (s : State) : s.beginCommand.err = s.err := rfl
@[simp] theorem State.beginCommand_tmulti (s : State) : s.beginCommand.tmulti = s.tmulti := rfl
@[simp] theorem State.beginCommand_fcL (s : State) : s.beginCommand.fcL = s.fcL := rfl
@[simp] theorem State.beginCommand_loopL (s : State) : s.beginCommand.loopL = s.loopL := rfl
@[simp] theorem State.beginCommand_palK (s : State) : s.beginCommand.palK = s.palK := rfl
@[simp] theorem State.beginCommand_mcs (s : State) : s.beginCommand.mcs = s.mcs := rfl
@[simp] theorem State.beginCommand_tflag (s : State) : s.beginCommand.tflag = s.tflag := rfl
@[simp] theorem State.beginCommand_tidx (s : State) : s.beginCommand.tidx = s.tidx := rfl
@[simp] theorem State.beginCommand_framesDone (s : State) : s.beginCommand.framesDone = s.framesDone := rfl
@[simp] theorem State.beginCommand_sbBuf (s : State) : s.beginCommand.sbBuf = s.sbBuf := rfl
@[simp] theorem State.beginCommand_sbCnt (s : State) : s.beginCommand.sbCnt = s.sbCnt := rfl
@[simp] theorem State.beginCommand_frameCount (s : State) : s.beginCommand.frameCount = s.frameCount := rfl
@[simp] theorem State.beginCommand_delayCount (s : State) : s.beginCommand.delayCount = s.delayCount := rfl
@[simp] theorem State.beginCommand_loopCount (s : State) : s.beginCommand.loopCount = s.loopCount := rfl
@[simp] theorem State.beginCommand_palLen (s : State) : s.beginCommand.palLen = s.palLen := rfl
@[simp] theorem State.beginCommand_frameMin (s : State) : s.beginCommand.frameMin = s.frameMin := rfl
@[simp] theorem State.beginCommand_frameMax (s : State) : s.beginCommand.frameMax = s.frameMax := rfl
@[simp] theorem State.beginCommand_delay (s : State) : s.beginCommand.delay = s.delay := rfl
@[simp] theorem State.beginCommand_palette (s : State) : s.beginCommand.palette = s.palette := rfl
@[simp] theorem State.beginCommand_pending (s : State) : s.beginCommand.pending = s.pending := rfl
@[simp] theorem State.beginCommand_out (s : State) : s.beginCommand.out = s.out := rfl
@[simp] theorem State.beginCommand_sink (s : State) : s.beginCommand.sink = s.sink := rfl
@[simp] theorem State.beginCommand_reads (s : State) : s.beginCommand.reads = s.reads := rfl
@[simp] theorem State.beginCommand_agenda (s : State) : s.beginCommand.agenda = s.agenda := rfl

@[simp] theorem State.endCommand_phase (s : State) : s.endCommand.phase = s.phase := rfl
@[simp] theorem State.endCommand_busy (s : State) : s.endCommand.busy = false := rfl
@[simp] theorem State.endCommand_err (s : State) : s.endCommand.err = s.err := rfl
@[simp] theorem State.endCommand_tmulti (s : State) : s.endCommand.tmulti = s.tmulti := rfl
@[simp] theorem State.endCommand_fcL (s : State) : s.endCommand.fcL = s.fcL := rfl
@[simp] theorem State.endCommand_loopL (s : State) : s.endCommand.loopL = s.loopL := rfl
@[simp] theorem State.endCommand_palK (s : State) : s.endCommand.palK = s.palK := rfl
@[simp] theorem State.endCommand_mcs (s : State) : s.endCommand.mcs = s.mcs := rfl
@[simp] theorem State.endCommand_tflag (s : State) : s.endCommand.tflag = s.tflag := rfl
@[simp] theorem State.endCommand_tidx (s : State) : s.endCommand.tidx = s.tidx := rfl
@[simp] theorem State.endCommand_framesDone (s : State) : s.endCommand.framesDone = s.framesDone := rfl
@[simp] theorem State.endCommand_sbBuf (s : State) : s.endCommand.sbBuf = s.sbBuf := rfl
@[simp] theorem State.endCommand_sbCnt (s : State) : s.endCommand.sbCnt = s.sbCnt := rfl
@[simp] theorem State.endCommand_frameCount (s : State) : s.endCommand.frameCount = s.frameCount := rfl
@[simp] theorem State.endCommand_delayCount (s : State) : s.endCommand.delayCount = s.delayCount := rfl
@[simp] theorem State.endCommand_loopCount (s : State) : s.endCommand.loopCount = s.loopCount := rfl
@[simp] theorem State.endCommand_palLen (s : State) : s.endCommand.palLen = s.palLen := rfl
@[simp] theorem State.endCommand_frameMin (s : State) : s.endCommand.frameMin = s.frameMin := rfl
@[simp] theorem State.endCommand_frameMax (s : State) : s.endCommand.frameMax = s.frameMax := rfl
@[simp] theorem State.endCommand_delay (s : State) : s.endCommand.delay = s.delay := rfl
@[simp] theorem State.endCommand_palette (s : State) : s.endCommand.palette = s.palette := rfl
@[simp] theorem State.endCommand_pending (s : State) : s.endCommand.pending = s.pending := rfl
@[simp] theorem State.endCommand_out (s : State) : s.endCommand.out = s.out := rfl
@[simp] theorem State.endCommand_sink (s : State) : s.endCommand.sink = s.sink := rfl
@[simp] theorem State.endCommand_reads (s : State) : s.endCommand.reads = s.reads := rfl
@[simp] theorem State.endCommand_agenda (s : State) : s.endCommand.agenda = s.agenda := rfl

@[simp] theorem State.suspend_phase (s : State) (l : List CmdStep) : (s.suspend l).phase = s.phase := rfl
@[simp] theorem State.suspend_busy (s : State) (l : List CmdStep) : (s.suspend l).busy = true := rfl
@[simp] theorem State.suspend_err (s : State) (l : List CmdStep) : (s.suspend l).err = s.err := rfl
@[simp] theorem State.suspend_tmulti (s : State) (l : List CmdStep) : (s.suspend l).tmulti = s.tmulti := rfl
@[simp] theorem State.suspend_fcL (s : State) (l : List CmdStep) : (s.suspend l).fcL = s.fcL := rfl
@[simp] theorem State.suspend_loopL (s : State) (l : List CmdStep) : (s.suspend l).loopL = s.loopL := rfl
@[simp] theorem State.suspend_palK (s : State) (l : List CmdStep) : (s.suspend l).palK = s.palK := rfl
@[simp] theorem State.suspend_mcs (s : State) (l : List CmdStep) : (s.suspend l).mcs = s.mcs := rfl
@[simp] theorem State.suspend_tflag (s : State) (l : List CmdStep) : (s.suspend l).tflag = s.tflag := rfl
@[simp] theorem State.suspend_tidx (s : State) (l : List CmdStep) : (s.suspend l).tidx = s.tidx := rfl
@[simp] theorem State.suspend_framesDone (s : State) (l : List CmdStep) : (s.suspend l).framesDone = s.framesDone := rfl
@[simp] theorem State.suspend_sbBuf (s : State) (l : List CmdStep) : (s.suspend l).sbBuf = s.sbBuf := rfl
@[simp] theorem State.suspend_sbCnt (s : State) (l : List CmdStep) : (s.suspend l).sbCnt = s.sbCnt := rfl
@[simp] theorem State.suspend_frameCount (s : State) (l : List CmdStep) : (s.suspend l).frameCount = s.frameCount := rfl
@[simp] theorem State.suspend_delayCount (s : State) (l : List CmdStep) : (s.suspend l).delayCount = s.delayCount := rfl
@[simp] theorem State.suspend_loopCount (s : State) (l : List CmdStep) : (s.suspend l).loopCount = s.loopCount := rfl
@[simp] theorem State.suspend_palLen (s : State) (l : List CmdStep) : (s.suspend l).palLen = s.palLen := rfl
@[simp] theorem State.suspend_frameMin (s : State) (l : List CmdStep) : (s.suspend l).frameMin = s.frameMin := rfl
@[simp] theorem State.suspend_frameMax (s : State) (l : List CmdStep) : (s.suspend l).frameMax = s.frameMax := rfl
@[simp] theorem State.suspend_delay (s : State) (l : List CmdStep) : (s.suspend l).delay = s.delay := rfl
@[simp] theorem State.suspend_palette (s : State) (l : List CmdStep) : (s.suspend l).palette = s.palette := rfl
@[simp] theorem State.suspend_pending (s : State) (l : List CmdStep) : (s.suspend l).pending = l := rfl
@[simp] theorem State.suspend_out (s : State) (l : List CmdStep) : (s.suspend l).out = s.out := rfl
@[simp] theorem State.suspend_sink (s : State) (l : List CmdStep) : (s.suspend l).sink = s.sink := rfl
@[simp] theorem State.suspend_reads (s : State) (l : List CmdStep) : (s.suspend l).reads = s.reads := rfl
@[simp] theorem State.suspend_agenda (s : State) (l : List CmdStep) : (s.suspend l).agenda = s.agenda := rfl

@[simp] theorem State.takeUp_phase (s : State) : s.takeUp.phase = s.phase := rfl
@[simp] theorem State.takeUp_busy (s : State) : s.takeUp.busy = s.busy := rfl
@[simp] theorem State.takeUp_err (s : State) : s.takeUp.err = s.err := rfl
@[simp] theorem State.takeUp_tmulti (s : State) : s.takeUp.tmulti = s.tmulti := rfl
@[simp] theorem State.takeUp_fcL (s : State) : s.takeUp.fcL = s.fcL := rfl
@[simp] theorem State.takeUp_loopL (s : State) : s.takeUp.loopL = s.loopL := rfl
@[simp] theorem State.takeUp_palK (s : State) : s.takeUp.palK = s.palK := rfl
@[simp] theorem State.takeUp_mcs (s : State) : s.takeUp.mcs = s.mcs := rfl
@[simp] theorem State.takeUp_tflag (s : State) : s.takeUp.tflag = s.tflag := rfl
@[simp] theorem State.takeUp_tidx (s : State) : s.takeUp.tidx = s.tidx := rfl
@[simp] theorem State.takeUp_framesDone (s : State) : s.takeUp.framesDone = s.framesDone := rfl
@[simp] theorem State.takeUp_sbBuf (s : State) : s.takeUp.sbBuf = s.sbBuf := rfl
@[simp] theorem State.takeUp_sbCnt (s : State) : s.takeUp.sbCnt = s.sbCnt := rfl
@[simp] theorem State.takeUp_frameCount (s : State) : s.takeUp.frameCount = s.frameCount := rfl
@[simp] theorem State.takeUp_delayCount (s : State) : s.takeUp.delayCount = s.delayCount := rfl
@[simp] theorem State.takeUp_loopCount (s : State) : s.takeUp.loopCount = s.loopCount := rfl
@[simp] theorem State.takeUp_palLen (s : State) : s.takeUp.palLen = s.palLen := rfl
@[simp] theorem State.takeUp_frameMin (s : State) : s.takeUp.frameMin = s.frameMin := rfl
@[simp] theorem State.takeUp_frameMax (s : State) : s.takeUp.frameMax = s.frameMax := rfl
@[simp] theorem State.takeUp_delay (s : State) : s.takeUp.delay = s.delay := rfl
@[simp] theorem State.takeUp_palette (s : State) : s.takeUp.palette = s.palette := rfl
@[simp] theorem State.takeUp_pending (s : State) : s.takeUp.pending = [] := rfl
@[simp] theorem State.takeUp_out (s : State) : s.takeUp.out = s.out := rfl
@[simp] theorem State.takeUp_sink (s : State) : s.takeUp.sink = s.sink := rfl
@[simp] theorem State.takeUp_reads (s : State) : s.takeUp.reads = s.reads := rfl
@[simp] theorem State.takeUp_agenda (s : State) : s.takeUp.agenda = s.agenda := rfl

@[simp] theorem State.setPhase_phase (s : State) (p : Phase) : (s.setPhase p).phase = p := rfl
@[simp] theorem State.setPhase_busy (s : State) (p : Phase) : (s.setPhase p).busy = s.busy := rfl
@[simp] theorem State.setPhase_err (s : State) (p : Phase) : (s.setPhase p).err = s.err := rfl
@[simp] theorem State.setPhase_tmulti (s : State) (p : Phase) : (s.setPhase p).tmulti = s.tmulti := rfl
@[simp] theorem State.setPhase_fcL (s : State) (p : Phase) : (s.setPhase p).fcL = s.fcL := rfl
@[simp] theorem State.setPhase_loopL (s : State) (p : Phase) : (s.setPhase p).loopL = s.loopL := rfl
@[simp] theorem State.setPhase_palK (s : State) (p : Phase) : (s.setPhase p).palK = s.palK := rfl
@[simp] theorem State.setPhase_mcs (s : State) (p : Phase) : (s.setPhase p).mcs = s.mcs := rfl
@[simp] theorem State.setPhase_tflag (s : State) (p : Phase) : (s.setPhase p).tflag = s.tflag := rfl
@[simp] theorem State.setPhase_tidx (s : State) (p : Phase) : (s.setPhase p).tidx = s.tidx := rfl
@[simp] theorem State.setPhase_framesDone (s : State) (p : Phase) : (s.setPhase p).framesDone = s.framesDone := rfl
@[simp] theorem State.setPhase_sbBuf (s : State) (p : Phase) : (s.setPhase p).sbBuf = s.sbBuf := rfl
@[simp] theorem State.setPhase_sbCnt (s : State) (p : Phase) : (s.setPhase p).sbCnt = s.sbCnt := rfl
@[simp] theorem State.setPhase_frameCount (s : State) (p : Phase) : (s.setPhase p).frameCount = s.frameCount := rfl
@[simp] theorem State.setPhase_delayCount (s : State) (p : Phase) : (s.setPhase p).delayCount = s.delayCount := rfl
@[simp] theorem State.setPhase_loopCount (s : State) (p : Phase) : (s.setPhase p).loopCount = s.loopCount := rfl
@[simp] theorem State.setPhase_palLen (s : State) (p : Phase) : (s.setPhase p).palLen = s.palLen := rfl
@[simp] theorem State.setPhase_frameMin (s : State) (p : Phase) : (s.setPhase p).frameMin = s.frameMin := rfl
@[simp] theorem State.setPhase_frameMax (s : State) (p : Phase) : (s.setPhase p).frameMax = s.frameMax := rfl
@[simp] theorem State.setPhase_delay (s : State) (p : Phase) : (s.setPhase p).delay = s.delay := rfl
@[simp] theorem State.setPhase_palette (s : State) (p : Phase) : (s.setPhase p).palette = s.palette := rfl
@[simp] theorem State.setPhase_pending (s : State) (p : Phase) : (s.setPhase p).pending = s.pending := rfl
@[simp] theorem State.setPhase_out (s : State) (p : Phase) : (s.setPhase p).out = s.out := rfl
@[simp] theorem State.setPhase_sink (s : State) (p : Phase) : (s.setPhase p).sink = s.sink := rfl
@[simp] theorem State.setPhase_reads (s : State) (p : Phase) : (s.setPhase p).reads = s.reads := rfl
@[simp] theorem State.setPhase_agenda (s : State) (p : Phase) : (s.setPhase p).agenda = s.agenda := rfl

@[simp] theorem State.clearFill_phase (s : State) : s.clearFill.phase = s.phase := rfl
@[simp] theorem State.clearFill_busy (s : State) : s.clearFill.busy = s.busy := rfl
@[simp] theorem State.clearFill_err (s : State) : s.clearFill.err = s.err := rfl
@[simp] theorem State.clearFill_tmulti (s : State) : s.clearFill.tmulti = s.tmulti := rfl
@[simp] theorem State.clearFill_fcL (s : State) : s.clearFill.fcL = s.fcL := rfl
@[simp] theorem State.clearFill_loopL (s : State) : s.clearFill.loopL = s.loopL := rfl
@[simp] theorem State.clearFill_palK (s : State) : s.clearFill.palK = s.palK := rfl
@[simp] theorem State.clearFill_mcs (s : State) : s.clearFill.mcs = s.mcs := rfl
@[simp] theorem State.clearFill_tflag (s : State) : s.clearFill.tflag = s.tflag := rfl
@[simp] theorem State.clearFill_tidx (s : State) : s.clearFill.tidx = s.tidx := rfl
@[simp] theorem State.clearFill_framesDone (s : State) : s.clearFill.framesDone = s.framesDone := rfl
@[simp] theorem State.clearFill_sbBuf (s : State) : s.clearFill.sbBuf = s.sbBuf := rfl
@[simp] theorem State.clearFill_sbCnt (s : State) : s.clearFill.sbCnt = 0 := rfl
@[simp] theorem State.clearFill_frameCount (s : State) : s.clearFill.frameCount = s.frameCount := rfl
@[simp] theorem State.clearFill_delayCount (s : State) : s.clearFill.delayCount = s.delayCount := rfl
@[simp] theorem State.clearFill_loopCount (s : State) : s.clearFill.loopCount = s.loopCount := rfl
@[simp] theorem State.clearFill_palLen (s : State) : s.clearFill.palLen = s.palLen := rfl
@[simp] theorem State.clearFill_frameMin (s : State) : s.clearFill.frameMin = s.frameMin := rfl
@[simp] theorem State.clearFill_frameMax (s : State) : s.clearFill.frameMax = s.frameMax := rfl
@[simp] theorem State.clearFill_delay (s : State) : s.clearFill.delay = s.delay := rfl
@[simp] theorem State.clearFill_palette (s : State) : s.clearFill.palette = s.palette := rfl
@[simp] theorem State.clearFill_pending (s : State) : s.clearFill.pending = s.pending := rfl
@[simp] theorem State.clearFill_out (s : State) : s.clearFill.out = s.out := rfl
@[simp] theorem State.clearFill_sink (s : State) : s.clearFill.sink = s.sink := rfl
@[simp] theorem State.clearFill_reads (s : State) : s.clearFill.reads = s.reads := rfl
@[simp] theorem State.clearFill_agenda (s : State) : s.clearFill.agenda = s.agenda := rfl

@[simp] theorem State.bufferByte_phase (s : State) (b : Byte) : (s.bufferByte b).phase = s.phase := rfl
@[simp] theorem State.bufferByte_busy (s : State) (b : Byte) : (s.bufferByte b).busy = s.busy := rfl
@[simp] theorem State.bufferByte_err (s : State) (b : Byte) : (s.bufferByte b).err = s.err := rfl
@[simp] theorem State.bufferByte_tmulti (s : State) (b : Byte) : (s.bufferByte b).tmulti = s.tmulti := rfl
@[simp] theorem State.bufferByte_fcL (s : State) (b : Byte) : (s.bufferByte b).fcL = s.fcL := rfl
@[simp] theorem State.bufferByte_loopL (s : State) (b : Byte) : (s.bufferByte b).loopL = s.loopL := rfl
@[simp] theorem State.bufferByte_palK (s : State) (b : Byte) : (s.bufferByte b).palK = s.palK := rfl
@[simp] theorem State.bufferByte_mcs (s : State) (b : Byte) : (s.bufferByte b).mcs = s.mcs := rfl
@[simp] theorem State.bufferByte_tflag (s : State) (b : Byte) : (s.bufferByte b).tflag = s.tflag := rfl
@[simp] theorem State.bufferByte_tidx (s : State) (b : Byte) : (s.bufferByte b).tidx = s.tidx := rfl
@[simp] theorem State.bufferByte_framesDone (s : State) (b : Byte) : (s.bufferByte b).framesDone = s.framesDone := rfl
@[simp] theorem State.bufferByte_sbBuf (s : State) (b : Byte) : (s.bufferByte b).sbBuf = s.sbBuf.setIfInBounds s.sbCnt.toNat b := rfl
@[simp] theorem State.bufferByte_sbCnt (s : State) (b : Byte) : (s.bufferByte b).sbCnt = s.sbCnt + 1 := rfl
@[simp] theorem State.bufferByte_frameCount (s : State) (b : Byte) : (s.bufferByte b).frameCount = s.frameCount := rfl
@[simp] theorem State.bufferByte_delayCount (s : State) (b : Byte) : (s.bufferByte b).delayCount = s.delayCount := rfl
@[simp] theorem State.bufferByte_loopCount (s : State) (b : Byte) : (s.bufferByte b).loopCount = s.loopCount := rfl
@[simp] theorem State.bufferByte_palLen (s : State) (b : Byte) : (s.bufferByte b).palLen = s.palLen := rfl
@[simp] theorem State.bufferByte_frameMin (s : State) (b : Byte) : (s.bufferByte b).frameMin = s.frameMin := rfl
@[simp] theorem State.bufferByte_frameMax (s : State) (b : Byte) : (s.bufferByte b).frameMax = s.frameMax := rfl
@[simp] theorem State.bufferByte_delay (s : State) (b : Byte) : (s.bufferByte b).delay = s.delay := rfl
@[simp] theorem State.bufferByte_palette (s : State) (b : Byte) : (s.bufferByte b).palette = s.palette := rfl
@[simp] theorem State.bufferByte_pending (s : State) (b : Byte) : (s.bufferByte b).pending = s.pending := rfl
@[simp] theorem State.bufferByte_out (s : State) (b : Byte) : (s.bufferByte b).out = s.out := rfl
@[simp] theorem State.bufferByte_sink (s : State) (b : Byte) : (s.bufferByte b).sink = s.sink := rfl
@[simp] theorem State.bufferByte_reads (s : State) (b : Byte) : (s.bufferByte b).reads = s.reads := rfl
@[simp] theorem State.bufferByte_agenda (s : State) (b : Byte) : (s.bufferByte b).agenda = s.agenda := rfl

@[simp] theorem State.countFrame_phase (s : State) : s.countFrame.phase = if s.framesDone + 1 < s.fcL then .frm else .trl := rfl
@[simp] theorem State.countFrame_busy (s : State) : s.countFrame.busy = s.busy := rfl
@[simp] theorem State.countFrame_err (s : State) : s.countFrame.err = s.err := rfl
@[simp] theorem State.countFrame_tmulti (s : State) : s.countFrame.tmulti = s.tmulti := rfl
@[simp] theorem State.countFrame_fcL (s : State) : s.countFrame.fcL = s.fcL := rfl
@[simp] theorem State.countFrame_loopL (s : State) : s.countFrame.loopL = s.loopL := rfl
@[simp] theorem State.countFrame_palK (s : State) : s.countFrame.palK = s.palK := rfl
@[simp] theorem State.countFrame_mcs (s : State) : s.countFrame.mcs = s.mcs := rfl
@[simp] theorem State.countFrame_tflag (s : State) : s.countFrame.tflag = s.tflag := rfl
@[simp] theorem State.countFrame_tidx (s : State) : s.countFrame.tidx = s.tidx := rfl
@[simp] theorem State.countFrame_framesDone (s : State) : s.countFrame.framesDone = s.framesDone + 1 := rfl
@[simp] theorem State.countFrame_sbBuf (s : State) : s.countFrame.sbBuf = s.sbBuf := rfl
@[simp] theorem State.countFrame_sbCnt (s : State) : s.countFrame.sbCnt = s.sbCnt := rfl
@[simp] theorem State.countFrame_frameCount (s : State) : s.countFrame.frameCount = s.frameCount := rfl
@[simp] theorem State.countFrame_delayCount (s : State) : s.countFrame.delayCount = s.delayCount := rfl
@[simp] theorem State.countFrame_loopCount (s : State) : s.countFrame.loopCount = s.loopCount := rfl
@[simp] theorem State.countFrame_palLen (s : State) : s.countFrame.palLen = s.palLen := rfl
@[simp] theorem State.countFrame_frameMin (s : State) : s.countFrame.frameMin = s.frameMin := rfl
@[simp] theorem State.countFrame_frameMax (s : State) : s.countFrame.frameMax = s.frameMax := rfl
@[simp] theorem State.countFrame_delay (s : State) : s.countFrame.delay = s.delay := rfl
@[simp] theorem State.countFrame_palette (s : State) : s.countFrame.palette = s.palette := rfl
@[simp] theorem State.countFrame_pending (s : State) : s.countFrame.pending = s.pending := rfl
@[simp] theorem State.countFrame_out (s : State) : s.countFrame.out = s.out := rfl
@[simp] theorem State.countFrame_sink (s : State) : s.countFrame.sink = s.sink := rfl
@[simp] theorem State.countFrame_reads (s : State) : s.countFrame.reads = s.reads := rfl
@[simp] theorem State.countFrame_agenda (s : State) : s.countFrame.agenda = s.agenda := rfl

@[simp] theorem State.openStream_phase (s : State) : s.openStream.phase = .hdr := rfl
@[simp] theorem State.openStream_busy (s : State) : s.openStream.busy = s.busy := rfl
@[simp] theorem State.openStream_err (s : State) : s.openStream.err = s.err := rfl
@[simp] theorem State.openStream_tmulti (s : State) : s.openStream.tmulti = false := rfl
@[simp] theorem State.openStream_fcL (s : State) : s.openStream.fcL = s.frameCount := rfl
@[simp] theorem State.openStream_loopL (s : State) : s.openStream.loopL = normaliseLoop s.loopCount := rfl
@[simp] theorem State.openStream_palK (s : State) : s.openStream.palK = latchedPalK s.palLen := rfl
@[simp] theorem State.openStream_mcs (s : State) : s.openStream.mcs = latchedMcs s.palLen := rfl
@[simp] theorem State.openStream_tflag (s : State) : s.openStream.tflag = false := rfl
@[simp] theorem State.openStream_tidx (s : State) : s.openStream.tidx = 0 := rfl
@[simp] theorem State.openStream_framesDone (s : State) : s.openStream.framesDone = 0 := rfl
@[simp] theorem State.openStream_sbBuf (s : State) : s.openStream.sbBuf = s.sbBuf := rfl
@[simp] theorem State.openStream_sbCnt (s : State) : s.openStream.sbCnt = 0 := rfl
@[simp] theorem State.openStream_frameCount (s : State) : s.openStream.frameCount = s.frameCount := rfl
@[simp] theorem State.openStream_delayCount (s : State) : s.openStream.delayCount = s.delayCount := rfl
@[simp] theorem State.openStream_loopCount (s : State) : s.openStream.loopCount = s.loopCount := rfl
@[simp] theorem State.openStream_palLen (s : State) : s.openStream.palLen = s.palLen := rfl
@[simp] theorem State.openStream_frameMin (s : State) : s.openStream.frameMin = s.frameMin := rfl
@[simp] theorem State.openStream_frameMax (s : State) : s.openStream.frameMax = s.frameMax := rfl
@[simp] theorem State.openStream_delay (s : State) : s.openStream.delay = s.delay := rfl
@[simp] theorem State.openStream_palette (s : State) : s.openStream.palette = s.palette := rfl
@[simp] theorem State.openStream_pending (s : State) : s.openStream.pending = s.pending := rfl
@[simp] theorem State.openStream_out (s : State) : s.openStream.out = s.out := rfl
@[simp] theorem State.openStream_sink (s : State) : s.openStream.sink = s.sink := rfl
@[simp] theorem State.openStream_reads (s : State) : s.openStream.reads = s.reads := rfl
@[simp] theorem State.openStream_agenda (s : State) : s.openStream.agenda = s.agenda := rfl

@[simp] theorem State.enterError_phase (s : State) (c : ErrKind) : (s.enterError c).phase = .error := rfl
@[simp] theorem State.enterError_busy (s : State) (c : ErrKind) : (s.enterError c).busy = false := rfl
@[simp] theorem State.enterError_err (s : State) (c : ErrKind) : (s.enterError c).err = c := rfl
@[simp] theorem State.enterError_tmulti (s : State) (c : ErrKind) : (s.enterError c).tmulti = s.tmulti := rfl
@[simp] theorem State.enterError_fcL (s : State) (c : ErrKind) : (s.enterError c).fcL = s.fcL := rfl
@[simp] theorem State.enterError_loopL (s : State) (c : ErrKind) : (s.enterError c).loopL = s.loopL := rfl
@[simp] theorem State.enterError_palK (s : State) (c : ErrKind) : (s.enterError c).palK = s.palK := rfl
@[simp] theorem State.enterError_mcs (s : State) (c : ErrKind) : (s.enterError c).mcs = s.mcs := rfl
@[simp] theorem State.enterError_tflag (s : State) (c : ErrKind) : (s.enterError c).tflag = s.tflag := rfl
@[simp] theorem State.enterError_tidx (s : State) (c : ErrKind) : (s.enterError c).tidx = s.tidx := rfl
@[simp] theorem State.enterError_framesDone (s : State) (c : ErrKind) : (s.enterError c).framesDone = s.framesDone := rfl
@[simp] theorem State.enterError_sbBuf (s : State) (c : ErrKind) : (s.enterError c).sbBuf = s.sbBuf := rfl
@[simp] theorem State.enterError_sbCnt (s : State) (c : ErrKind) : (s.enterError c).sbCnt = s.sbCnt := rfl
@[simp] theorem State.enterError_frameCount (s : State) (c : ErrKind) : (s.enterError c).frameCount = s.frameCount := rfl
@[simp] theorem State.enterError_delayCount (s : State) (c : ErrKind) : (s.enterError c).delayCount = s.delayCount := rfl
@[simp] theorem State.enterError_loopCount (s : State) (c : ErrKind) : (s.enterError c).loopCount = s.loopCount := rfl
@[simp] theorem State.enterError_palLen (s : State) (c : ErrKind) : (s.enterError c).palLen = s.palLen := rfl
@[simp] theorem State.enterError_frameMin (s : State) (c : ErrKind) : (s.enterError c).frameMin = s.frameMin := rfl
@[simp] theorem State.enterError_frameMax (s : State) (c : ErrKind) : (s.enterError c).frameMax = s.frameMax := rfl
@[simp] theorem State.enterError_delay (s : State) (c : ErrKind) : (s.enterError c).delay = s.delay := rfl
@[simp] theorem State.enterError_palette (s : State) (c : ErrKind) : (s.enterError c).palette = s.palette := rfl
@[simp] theorem State.enterError_pending (s : State) (c : ErrKind) : (s.enterError c).pending = s.pending := rfl
@[simp] theorem State.enterError_out (s : State) (c : ErrKind) : (s.enterError c).out = s.out := rfl
@[simp] theorem State.enterError_sink (s : State) (c : ErrKind) : (s.enterError c).sink = s.sink := rfl
@[simp] theorem State.enterError_reads (s : State) (c : ErrKind) : (s.enterError c).reads = s.reads := rfl
@[simp] theorem State.enterError_agenda (s : State) (c : ErrKind) : (s.enterError c).agenda = s.agenda := rfl

@[simp] theorem State.abandon_phase (s : State) : s.abandon.phase = .idle := rfl
@[simp] theorem State.abandon_busy (s : State) : s.abandon.busy = s.busy := rfl
@[simp] theorem State.abandon_err (s : State) : s.abandon.err = .noError := rfl
@[simp] theorem State.abandon_tmulti (s : State) : s.abandon.tmulti = false := rfl
@[simp] theorem State.abandon_fcL (s : State) : s.abandon.fcL = s.fcL := rfl
@[simp] theorem State.abandon_loopL (s : State) : s.abandon.loopL = s.loopL := rfl
@[simp] theorem State.abandon_palK (s : State) : s.abandon.palK = s.palK := rfl
@[simp] theorem State.abandon_mcs (s : State) : s.abandon.mcs = s.mcs := rfl
@[simp] theorem State.abandon_tflag (s : State) : s.abandon.tflag = s.tflag := rfl
@[simp] theorem State.abandon_tidx (s : State) : s.abandon.tidx = s.tidx := rfl
@[simp] theorem State.abandon_framesDone (s : State) : s.abandon.framesDone = s.framesDone := rfl
@[simp] theorem State.abandon_sbBuf (s : State) : s.abandon.sbBuf = s.sbBuf := rfl
@[simp] theorem State.abandon_sbCnt (s : State) : s.abandon.sbCnt = 0 := rfl
@[simp] theorem State.abandon_frameCount (s : State) : s.abandon.frameCount = s.frameCount := rfl
@[simp] theorem State.abandon_delayCount (s : State) : s.abandon.delayCount = s.delayCount := rfl
@[simp] theorem State.abandon_loopCount (s : State) : s.abandon.loopCount = s.loopCount := rfl
@[simp] theorem State.abandon_palLen (s : State) : s.abandon.palLen = s.palLen := rfl
@[simp] theorem State.abandon_frameMin (s : State) : s.abandon.frameMin = s.frameMin := rfl
@[simp] theorem State.abandon_frameMax (s : State) : s.abandon.frameMax = s.frameMax := rfl
@[simp] theorem State.abandon_delay (s : State) : s.abandon.delay = s.delay := rfl
@[simp] theorem State.abandon_palette (s : State) : s.abandon.palette = s.palette := rfl
@[simp] theorem State.abandon_pending (s : State) : s.abandon.pending = s.pending := rfl
@[simp] theorem State.abandon_out (s : State) : s.abandon.out = s.out := rfl
@[simp] theorem State.abandon_sink (s : State) : s.abandon.sink = s.sink := rfl
@[simp] theorem State.abandon_reads (s : State) : s.abandon.reads = s.reads := rfl
@[simp] theorem State.abandon_agenda (s : State) : s.abandon.agenda = s.agenda := rfl

@[simp] theorem State.scanEntry_phase (s : State) (i : Nat) (e : Word) : (s.scanEntry i e).phase = s.phase := rfl
@[simp] theorem State.scanEntry_busy (s : State) (i : Nat) (e : Word) : (s.scanEntry i e).busy = s.busy := rfl
@[simp] theorem State.scanEntry_err (s : State) (i : Nat) (e : Word) : (s.scanEntry i e).err = s.err := rfl
@[simp] theorem State.scanEntry_tmulti (s : State) (i : Nat) (e : Word) : (s.scanEntry i e).tmulti = (s.tmulti || (nonOpaque e && s.tflag)) := rfl
@[simp] theorem State.scanEntry_fcL (s : State) (i : Nat) (e : Word) : (s.scanEntry i e).fcL = s.fcL := rfl
@[simp] theorem State.scanEntry_loopL (s : State) (i : Nat) (e : Word) : (s.scanEntry i e).loopL = s.loopL := rfl
@[simp] theorem State.scanEntry_palK (s : State) (i : Nat) (e : Word) : (s.scanEntry i e).palK = s.palK := rfl
@[simp] theorem State.scanEntry_mcs (s : State) (i : Nat) (e : Word) : (s.scanEntry i e).mcs = s.mcs := rfl
@[simp] theorem State.scanEntry_tflag (s : State) (i : Nat) (e : Word) : (s.scanEntry i e).tflag = (s.tflag || nonOpaque e) := rfl
@[simp] theorem State.scanEntry_tidx (s : State) (i : Nat) (e : Word) : (s.scanEntry i e).tidx = if nonOpaque e && !s.tflag then BitVec.ofNat 8 i else s.tidx := rfl
@[simp] theorem State.scanEntry_framesDone (s : State) (i : Nat) (e : Word) : (s.scanEntry i e).framesDone = s.framesDone := rfl
@[simp] theorem State.scanEntry_sbBuf (s : State) (i : Nat) (e : Word) : (s.scanEntry i e).sbBuf = s.sbBuf := rfl
@[simp] theorem State.scanEntry_sbCnt (s : State) (i : Nat) (e : Word) : (s.scanEntry i e).sbCnt = s.sbCnt := rfl
@[simp] theorem State.scanEntry_frameCount (s : State) (i : Nat) (e : Word) : (s.scanEntry i e).frameCount = s.frameCount := rfl
@[simp] theorem State.scanEntry_delayCount (s : State) (i : Nat) (e : Word) : (s.scanEntry i e).delayCount = s.delayCount := rfl
@[simp] theorem State.scanEntry_loopCount (s : State) (i : Nat) (e : Word) : (s.scanEntry i e).loopCount = s.loopCount := rfl
@[simp] theorem State.scanEntry_palLen (s : State) (i : Nat) (e : Word) : (s.scanEntry i e).palLen = s.palLen := rfl
@[simp] theorem State.scanEntry_frameMin (s : State) (i : Nat) (e : Word) : (s.scanEntry i e).frameMin = s.frameMin := rfl
@[simp] theorem State.scanEntry_frameMax (s : State) (i : Nat) (e : Word) : (s.scanEntry i e).frameMax = s.frameMax := rfl
@[simp] theorem State.scanEntry_delay (s : State) (i : Nat) (e : Word) : (s.scanEntry i e).delay = s.delay := rfl
@[simp] theorem State.scanEntry_palette (s : State) (i : Nat) (e : Word) : (s.scanEntry i e).palette = s.palette := rfl
@[simp] theorem State.scanEntry_pending (s : State) (i : Nat) (e : Word) : (s.scanEntry i e).pending = s.pending := rfl
@[simp] theorem State.scanEntry_out (s : State) (i : Nat) (e : Word) : (s.scanEntry i e).out = s.out := rfl
@[simp] theorem State.scanEntry_sink (s : State) (i : Nat) (e : Word) : (s.scanEntry i e).sink = s.sink := rfl
@[simp] theorem State.scanEntry_reads (s : State) (i : Nat) (e : Word) : (s.scanEntry i e).reads = s.reads := rfl
@[simp] theorem State.scanEntry_agenda (s : State) (i : Nat) (e : Word) : (s.scanEntry i e).agenda = s.agenda := rfl

@[simp] theorem State.returnWord_phase (s : State) (v : Word) : (s.returnWord v).phase = s.phase := rfl
@[simp] theorem State.returnWord_busy (s : State) (v : Word) : (s.returnWord v).busy = s.busy := rfl
@[simp] theorem State.returnWord_err (s : State) (v : Word) : (s.returnWord v).err = s.err := rfl
@[simp] theorem State.returnWord_tmulti (s : State) (v : Word) : (s.returnWord v).tmulti = s.tmulti := rfl
@[simp] theorem State.returnWord_fcL (s : State) (v : Word) : (s.returnWord v).fcL = s.fcL := rfl
@[simp] theorem State.returnWord_loopL (s : State) (v : Word) : (s.returnWord v).loopL = s.loopL := rfl
@[simp] theorem State.returnWord_palK (s : State) (v : Word) : (s.returnWord v).palK = s.palK := rfl
@[simp] theorem State.returnWord_mcs (s : State) (v : Word) : (s.returnWord v).mcs = s.mcs := rfl
@[simp] theorem State.returnWord_tflag (s : State) (v : Word) : (s.returnWord v).tflag = s.tflag := rfl
@[simp] theorem State.returnWord_tidx (s : State) (v : Word) : (s.returnWord v).tidx = s.tidx := rfl
@[simp] theorem State.returnWord_framesDone (s : State) (v : Word) : (s.returnWord v).framesDone = s.framesDone := rfl
@[simp] theorem State.returnWord_sbBuf (s : State) (v : Word) : (s.returnWord v).sbBuf = s.sbBuf := rfl
@[simp] theorem State.returnWord_sbCnt (s : State) (v : Word) : (s.returnWord v).sbCnt = s.sbCnt := rfl
@[simp] theorem State.returnWord_frameCount (s : State) (v : Word) : (s.returnWord v).frameCount = s.frameCount := rfl
@[simp] theorem State.returnWord_delayCount (s : State) (v : Word) : (s.returnWord v).delayCount = s.delayCount := rfl
@[simp] theorem State.returnWord_loopCount (s : State) (v : Word) : (s.returnWord v).loopCount = s.loopCount := rfl
@[simp] theorem State.returnWord_palLen (s : State) (v : Word) : (s.returnWord v).palLen = s.palLen := rfl
@[simp] theorem State.returnWord_frameMin (s : State) (v : Word) : (s.returnWord v).frameMin = s.frameMin := rfl
@[simp] theorem State.returnWord_frameMax (s : State) (v : Word) : (s.returnWord v).frameMax = s.frameMax := rfl
@[simp] theorem State.returnWord_delay (s : State) (v : Word) : (s.returnWord v).delay = s.delay := rfl
@[simp] theorem State.returnWord_palette (s : State) (v : Word) : (s.returnWord v).palette = s.palette := rfl
@[simp] theorem State.returnWord_pending (s : State) (v : Word) : (s.returnWord v).pending = s.pending := rfl
@[simp] theorem State.returnWord_out (s : State) (v : Word) : (s.returnWord v).out = s.out := rfl
@[simp] theorem State.returnWord_sink (s : State) (v : Word) : (s.returnWord v).sink = s.sink := rfl
@[simp] theorem State.returnWord_reads (s : State) (v : Word) : (s.returnWord v).reads = s.reads ++ [v] := rfl
@[simp] theorem State.returnWord_agenda (s : State) (v : Word) : (s.returnWord v).agenda = s.agenda := rfl

@[simp] theorem State.withAgenda_phase (s : State) (l : List Move) : (s.withAgenda l).phase = s.phase := rfl
@[simp] theorem State.withAgenda_busy (s : State) (l : List Move) : (s.withAgenda l).busy = s.busy := rfl
@[simp] theorem State.withAgenda_err (s : State) (l : List Move) : (s.withAgenda l).err = s.err := rfl
@[simp] theorem State.withAgenda_tmulti (s : State) (l : List Move) : (s.withAgenda l).tmulti = s.tmulti := rfl
@[simp] theorem State.withAgenda_fcL (s : State) (l : List Move) : (s.withAgenda l).fcL = s.fcL := rfl
@[simp] theorem State.withAgenda_loopL (s : State) (l : List Move) : (s.withAgenda l).loopL = s.loopL := rfl
@[simp] theorem State.withAgenda_palK (s : State) (l : List Move) : (s.withAgenda l).palK = s.palK := rfl
@[simp] theorem State.withAgenda_mcs (s : State) (l : List Move) : (s.withAgenda l).mcs = s.mcs := rfl
@[simp] theorem State.withAgenda_tflag (s : State) (l : List Move) : (s.withAgenda l).tflag = s.tflag := rfl
@[simp] theorem State.withAgenda_tidx (s : State) (l : List Move) : (s.withAgenda l).tidx = s.tidx := rfl
@[simp] theorem State.withAgenda_framesDone (s : State) (l : List Move) : (s.withAgenda l).framesDone = s.framesDone := rfl
@[simp] theorem State.withAgenda_sbBuf (s : State) (l : List Move) : (s.withAgenda l).sbBuf = s.sbBuf := rfl
@[simp] theorem State.withAgenda_sbCnt (s : State) (l : List Move) : (s.withAgenda l).sbCnt = s.sbCnt := rfl
@[simp] theorem State.withAgenda_frameCount (s : State) (l : List Move) : (s.withAgenda l).frameCount = s.frameCount := rfl
@[simp] theorem State.withAgenda_delayCount (s : State) (l : List Move) : (s.withAgenda l).delayCount = s.delayCount := rfl
@[simp] theorem State.withAgenda_loopCount (s : State) (l : List Move) : (s.withAgenda l).loopCount = s.loopCount := rfl
@[simp] theorem State.withAgenda_palLen (s : State) (l : List Move) : (s.withAgenda l).palLen = s.palLen := rfl
@[simp] theorem State.withAgenda_frameMin (s : State) (l : List Move) : (s.withAgenda l).frameMin = s.frameMin := rfl
@[simp] theorem State.withAgenda_frameMax (s : State) (l : List Move) : (s.withAgenda l).frameMax = s.frameMax := rfl
@[simp] theorem State.withAgenda_delay (s : State) (l : List Move) : (s.withAgenda l).delay = s.delay := rfl
@[simp] theorem State.withAgenda_palette (s : State) (l : List Move) : (s.withAgenda l).palette = s.palette := rfl
@[simp] theorem State.withAgenda_pending (s : State) (l : List Move) : (s.withAgenda l).pending = s.pending := rfl
@[simp] theorem State.withAgenda_out (s : State) (l : List Move) : (s.withAgenda l).out = s.out := rfl
@[simp] theorem State.withAgenda_sink (s : State) (l : List Move) : (s.withAgenda l).sink = s.sink := rfl
@[simp] theorem State.withAgenda_reads (s : State) (l : List Move) : (s.withAgenda l).reads = s.reads := rfl
@[simp] theorem State.withAgenda_agenda (s : State) (l : List Move) : (s.withAgenda l).agenda = l := rfl

@[simp] theorem State.afterReset_phase (s : State) : s.afterReset.phase = State.reset.phase := rfl
@[simp] theorem State.afterReset_busy (s : State) : s.afterReset.busy = State.reset.busy := rfl
@[simp] theorem State.afterReset_err (s : State) : s.afterReset.err = State.reset.err := rfl
@[simp] theorem State.afterReset_tmulti (s : State) : s.afterReset.tmulti = State.reset.tmulti := rfl
@[simp] theorem State.afterReset_fcL (s : State) : s.afterReset.fcL = State.reset.fcL := rfl
@[simp] theorem State.afterReset_loopL (s : State) : s.afterReset.loopL = State.reset.loopL := rfl
@[simp] theorem State.afterReset_palK (s : State) : s.afterReset.palK = State.reset.palK := rfl
@[simp] theorem State.afterReset_mcs (s : State) : s.afterReset.mcs = State.reset.mcs := rfl
@[simp] theorem State.afterReset_tflag (s : State) : s.afterReset.tflag = State.reset.tflag := rfl
@[simp] theorem State.afterReset_tidx (s : State) : s.afterReset.tidx = State.reset.tidx := rfl
@[simp] theorem State.afterReset_framesDone (s : State) : s.afterReset.framesDone = State.reset.framesDone := rfl
@[simp] theorem State.afterReset_sbBuf (s : State) : s.afterReset.sbBuf = State.reset.sbBuf := rfl
@[simp] theorem State.afterReset_sbCnt (s : State) : s.afterReset.sbCnt = State.reset.sbCnt := rfl
@[simp] theorem State.afterReset_frameCount (s : State) : s.afterReset.frameCount = State.reset.frameCount := rfl
@[simp] theorem State.afterReset_delayCount (s : State) : s.afterReset.delayCount = State.reset.delayCount := rfl
@[simp] theorem State.afterReset_loopCount (s : State) : s.afterReset.loopCount = State.reset.loopCount := rfl
@[simp] theorem State.afterReset_palLen (s : State) : s.afterReset.palLen = State.reset.palLen := rfl
@[simp] theorem State.afterReset_frameMin (s : State) : s.afterReset.frameMin = State.reset.frameMin := rfl
@[simp] theorem State.afterReset_frameMax (s : State) : s.afterReset.frameMax = State.reset.frameMax := rfl
@[simp] theorem State.afterReset_delay (s : State) : s.afterReset.delay = State.reset.delay := rfl
@[simp] theorem State.afterReset_palette (s : State) : s.afterReset.palette = State.reset.palette := rfl
@[simp] theorem State.afterReset_pending (s : State) : s.afterReset.pending = State.reset.pending := rfl
@[simp] theorem State.afterReset_out (s : State) : s.afterReset.out = s.out := rfl
@[simp] theorem State.afterReset_sink (s : State) : s.afterReset.sink = s.sink := rfl
@[simp] theorem State.afterReset_reads (s : State) : s.afterReset.reads = s.reads := rfl
@[simp] theorem State.afterReset_agenda (s : State) : s.afterReset.agenda = s.agenda := rfl

end Sys2Proof.Machine
end

