-- ==== Sys2Proof/Laws/Bus.lean ====
section
/-! SUPPORT. The host bus: the register table has one register per offset, and what one access does. -/

namespace Sys2Proof.Machine

/-- The register at a register's own offset is that register (R33). -/
theorem regAt_offset (r : Reg) : regAt r.offset = some r := by
  cases r with
  | pal i => revert i; decide +kernel
  | _ => rfl

/-- A 32-bit access at a multiple of 4 is on the bus (R61). -/
theorem onBus_aligned {off : Offset} (h : off.toNat % 4 = 0) : onBus off .bits32 = true := by simp [onBus, h]

/-- If a host read answers a next state, only the word read is new (R63). -/
theorem busRead_cases {off : Offset} {w : Width} {s t : State} (h : busRead off w s = .next t) :
    onBus off w = true ∧ ∃ v, t = s.returnWord v := by
  unfold busRead at h
  split at h
  · simp at h
  · rename_i hb
    refine ⟨by simpa using hb, ?_⟩
    split at h
    · exact ⟨0, by simpa [eq_comm] using h⟩
    · split at h
      · simp at h
      · rename_i v _
        exact ⟨v, by simpa [eq_comm] using h⟩

/-- If a host write answers a next state, BUSY was 0 and: the offset has no register, or it is CMD and the word was
issued, or a register other than CMD took the word (R61). -/
theorem busWrite_cases {off : Offset} {w : Width} {v : Word} {s t : State} (h : busWrite off w v s = .next t) :
    onBus off w = true ∧ s.busy = false ∧ ((regAt off = none ∧ t = s) ∨ (regAt off = some .cmd ∧ issueWord v s = .next t) ∨
      ∃ r, r ≠ .cmd ∧ regAt off = some r ∧ t = writeReg s r v) := by
  unfold busWrite at h
  split at h
  · simp at h
  · rename_i ho
    split at h
    · simp at h
    · rename_i hb
      refine ⟨by simpa using ho, by simpa using hb, ?_⟩
      split at h
      · rename_i hr
        exact .inl ⟨hr, by simpa [eq_comm] using h⟩
      · rename_i hr
        exact .inr (.inl ⟨hr, h⟩)
      · rename_i r hne hr
        exact .inr (.inr ⟨r, by rintro rfl; exact hne rfl, hr, by simpa [eq_comm] using h⟩)

/-- If a CMD write answers a next state, BUSY was 0 and: it was ignored in ERROR, or the word was illegal, or its command
ran (R200). -/
theorem issueWord_cases {w : Word} {s t : State} (h : issueWord w s = .next t) :
    s.busy = false ∧ ((s.phase = .error ∧ leavesIgnoring w = false ∧ t = s) ∨
      ((∃ e, decode w = .error e) ∧ (s.phase = .error → leavesIgnoring w = true) ∧ t = s.enterError .illegalCommand) ∨
      (∃ i, decode w = .ok i ∧ exec i s = .next t)) := by
  unfold issueWord at h
  split at h
  · simp at h
  · rename_i hb
    refine ⟨by simpa using hb, ?_⟩
    split at h
    · rename_i hp
      exact .inl ⟨hp.1, hp.2, by simpa [eq_comm] using h⟩
    · rename_i hp
      split at h
      · rename_i e he
        exact .inr (.inl ⟨⟨e, he⟩, fun hp' => by simpa [hp'] using hp, by simpa [raiseError, eq_comm] using h⟩)
      · rename_i i hi
        exact .inr (.inr ⟨i, hi, h⟩)

/-- Everything a step can be, by the next move (log 2). -/
theorem step_cases {s t : State} (h : step s = .next t) :
    (s.agenda = [] ∧ blockTurn s = .next t) ∨
    (∃ off w rest, s.agenda = .access (.read off w) :: rest ∧ busRead off w (s.withAgenda rest) = .next t) ∨
    (∃ off w v rest, s.agenda = .access (.write off w v) :: rest ∧ busWrite off w v (s.withAgenda rest) = .next t) ∨
    (∃ rest, s.agenda = .wait :: rest ∧ waitPoll rest s = .next t) ∨
    (∃ rest, s.agenda = .turn :: rest ∧ blockTurn (s.withAgenda rest) = .next t) ∨
    (∃ rest, s.agenda = .reset :: rest ∧ t = (s.withAgenda rest).afterReset) ∨
    (∃ rest, s.agenda = .checkError :: rest ∧ t = checkError rest s) ∨
    (∃ c rest, s.agenda = .compressed c :: rest ∧ t = forwardCompressed c rest s) ∨
    (∃ rest, s.agenda = .callEnd :: rest ∧ t = s.withAgenda rest) := by
  unfold step nextMove at h
  split at h
  · rename_i ha
    exact .inl ⟨ha, h⟩
  · rename_i a rest ha
    cases a with
    | read off w => exact .inr (.inl ⟨off, w, rest, ha, h⟩)
    | write off w v => exact .inr (.inr (.inl ⟨off, w, v, rest, ha, h⟩))
  · rename_i rest ha
    exact .inr (.inr (.inr (.inl ⟨rest, ha, h⟩)))
  · rename_i rest ha
    exact .inr (.inr (.inr (.inr (.inl ⟨rest, ha, h⟩))))
  · rename_i rest ha
    exact .inr (.inr (.inr (.inr (.inr (.inl ⟨rest, ha, by simpa [eq_comm] using h⟩)))))
  · rename_i rest ha
    exact .inr (.inr (.inr (.inr (.inr (.inr (.inl ⟨rest, ha, by simpa [eq_comm] using h⟩))))))
  · rename_i c rest ha
    exact .inr (.inr (.inr (.inr (.inr (.inr (.inr (.inl ⟨c, rest, ha, by simpa [eq_comm] using h⟩)))))))
  · rename_i rest ha
    exact .inr (.inr (.inr (.inr (.inr (.inr (.inr (.inr ⟨rest, ha, by simpa [eq_comm] using h⟩)))))))

/-! ## The host's EncodeAll -/

/-- A look at STATUS changes only what is the host's (R63). -/
theorem checkError_eq (rest : List Move) (s : State) : checkError rest s =
    { s with reads := (checkError rest s).reads, agenda := (checkError rest s).agenda } := rfl

/-- Forwarding compressed bytes changes, by itself, only what is the host's (R63). -/
theorem forwardCompressed_eq (c : Vector (List Byte) 16) (rest : List Move) (s : State) : forwardCompressed c rest s =
    { s with reads := (forwardCompressed c rest s).reads, agenda := (forwardCompressed c rest s).agenda } := rfl

/-- STATUS[2:0] is the phase's code (R35). -/
@[simp] theorem phaseField_statusWord (s : State) : phaseField s.statusWord = s.phase.code := by
  unfold State.statusWord phaseField
  generalize s.err = e
  generalize s.phase = p
  generalize s.busy = b
  generalize s.tmulti = m
  cases p <;> cases b <;> cases m <;> cases e <;> rfl

/-- INFO[3:0] is MCS (R43). -/
@[simp] theorem codeSizeField_infoWord (s : State) : codeSizeField s.infoWord = s.mcs := by
  unfold State.infoWord codeSizeField
  generalize s.palK = k
  generalize s.mcs = m
  revert k m
  decide +kernel

/-- Only ERROR has the code 7 (R21). -/
theorem phaseCode_error {p : Phase} : p.code = Phase.error.code ↔ p = .error := by
  cases p <;> decide

/-- The host goes on while PHASE is not ERROR. -/
theorem checkError_goesOn {s : State} (h : s.phase ≠ .error) (rest : List Move) :
    checkError rest s = { s with reads := s.reads ++ [s.statusWord], agenda := rest } := by
  simp [checkError, phaseCode_error, h, State.returnWord, State.withAgenda]

/-- In ERROR the host stops. -/
theorem checkError_stops {s : State} (h : s.phase = .error) (rest : List Move) :
    checkError rest s = { s with reads := s.reads ++ [s.statusWord], agenda := skipCall rest } := by
  simp [checkError, h, State.returnWord, State.withAgenda]

/-- A move of the host's inside a call. -/
def Move.inCall : Move → Bool
  | .access _ => true
  | .wait => true
  | .checkError => true
  | .compressed _ => true
  | .turn => false
  | .reset => false
  | .callEnd => false

/-- Stopping in a call leaves the moves after it. -/
theorem skipCall_append {l : List Move} (h : ∀ m ∈ l, Move.inCall m = true) (rest : List Move) :
    skipCall (l ++ .callEnd :: rest) = rest := by
  induction l with
  | nil => rfl
  | cons m l ih =>
    have hl := ih (fun x hx => h x (List.mem_cons_of_mem _ hx))
    have hm := h m List.mem_cons_self
    cases m <;> first | exact hl | simp [Move.inCall] at hm

end Sys2Proof.Machine
end

