-- ==== Sys2Proof/Laws/Run.lean ====
section
/-! SUPPORT. What the running of a command's steps can do, said once: how it goes on while the sink accepts, how it ends at a
byte the sink fails or stalls on, and the one inversion lemma from which frames and invariants follow. -/

namespace Sys2Proof.Machine

/-! ## The sink -/

@[simp] theorem Sink.after_zero (k : Sink) : k.after 0 = k := by simp [after]

@[simp] theorem Sink.after_after (k : Sink) (m n : Nat) : (k.after m).after n = k.after (m + n) := by
  simp [after, List.drop_drop]

theorem Sink.next_eq_after (k : Sink) : k.next = k.after 1 := by simp [next, after]

theorem Sink.accepts.answer {k : Sink} {n : Nat} (h : k.accepts (n + 1)) : k.answer = .accept := by
  simpa using h 0 (by omega)

theorem Sink.accepts.next {k : Sink} {n : Nat} (h : k.accepts (n + 1)) : k.next.accepts n := fun j hj => by
  have := h (1 + j) (by omega)
  rwa [← Sink.after_after, ← Sink.next_eq_after] at this

/-- The bytes after m accepted ones are accepted too. -/
theorem Sink.accepts.after {k : Sink} {m n : Nat} (h : k.accepts (m + n)) : (k.after m).accepts n := fun j hj => by
  rw [Sink.after_after]
  exact h (m + j) (by omega)

theorem Sink.accepts.mono {k : Sink} {m n : Nat} (h : k.accepts n) (hm : m ≤ n) : k.accepts m := fun j hj =>
  h j (by omega)

theorem Sink.failsAt.next {k : Sink} {n : Nat} (h : k.failsAt (n + 1)) : k.next.failsAt n :=
  ⟨h.1.next, by
    have := h.2
    rwa [Nat.add_comm, ← Sink.after_after, ← Sink.next_eq_after] at this⟩

theorem Sink.failsAt.after {k : Sink} {m n : Nat} (h : k.failsAt (m + n)) : (k.after m).failsAt n :=
  ⟨h.1.after, by simpa using h.2⟩

/-! ## Emitting -/

@[simp] theorem emits_nil : emits [] = [] := rfl

@[simp] theorem emits_cons (b : Byte) (bs : List Byte) : emits (b :: bs) = .emit b :: emits bs := rfl

@[simp] theorem emits_append (as bs : List Byte) : emits (as ++ bs) = emits as ++ emits bs := List.map_append

/-- While the sink accepts, the bytes join the output in order and the run goes on with what follows them (R66, R69). -/
theorem runSteps_emits {bs : List Byte} {rest : List CmdStep} {s : State} (h : s.sink.accepts bs.length) :
    runSteps (emits bs ++ rest) s =
      runSteps rest { s with out := s.out ++ bs, sink := s.sink.after bs.length } := by
  induction bs generalizing s with
  | nil => simp
  | cons b bs ih =>
    simp only [emits_cons, List.cons_append, runSteps, h.answer]
    rw [ih (s := s.answered.append b) h.next]
    simp [State.append, State.answered, Sink.next_eq_after, Nat.add_comm]

/-- At the byte the sink fails, WriteFailure is raised; the bytes before it stay, and nothing after it happens (R222,
R223). -/
theorem runSteps_emits_fail {bs : List Byte} {rest : List CmdStep} {s : State} {j : Nat} (hj : j < bs.length)
    (h : s.sink.failsAt j) :
    runSteps (emits bs ++ rest) s = .next (State.enterError
      { s with out := s.out ++ bs.take j, sink := s.sink.after (j + 1) } .writeFailure) := by
  induction bs generalizing s j with
  | nil => simp at hj
  | cons b bs ih =>
    simp only [emits_cons, List.cons_append, runSteps]
    cases j with
    | zero =>
      have ha : s.sink.answer = .fail := by simpa using h.2
      simp [ha, raiseError, State.answered, Sink.next_eq_after]
    | succ j =>
      rw [h.1.answer]
      simp only
      rw [ih (s := s.answered.append b) (by simpa using hj) h.next]
      simp [State.append, State.answered, Sink.next_eq_after, Nat.add_comm, Nat.add_left_comm]

/-- At the byte the sink stalls on, the command waits with that byte on offer (R66, R264). -/
theorem runSteps_emits_stall {bs : List Byte} {rest : List CmdStep} {s : State} {j : Nat} (hj : j < bs.length)
    (h : s.sink.accepts j) (ha : (s.sink.after j).answer = .stall) :
    runSteps (emits bs ++ rest) s = .next (State.suspend
      { s with out := s.out ++ bs.take j, sink := s.sink.after (j + 1) } (emits (bs.drop j) ++ rest)) := by
  induction bs generalizing s j with
  | nil => simp at hj
  | cons b bs ih =>
    simp only [emits_cons, List.cons_append, runSteps]
    cases j with
    | zero =>
      have ha : s.sink.answer = .stall := by simpa using ha
      simp [ha, State.answered, Sink.next_eq_after]
    | succ j =>
      rw [h.answer]
      simp only
      rw [ih (s := s.answered.append b) (by simpa using hj) h.next
        (by rwa [Nat.add_comm, ← Sink.after_after, ← Sink.next_eq_after] at ha)]
      simp [State.append, State.answered, Sink.next_eq_after, Nat.add_comm, Nat.add_left_comm]

/-! ## Everything a run of steps can do -/

/-- What one step does to the state when it is done in full (an Emit: when the sink accepts). -/
def CmdStep.apply (c : CmdStep) (s : State) : State :=
  match c with
  | .emit b => s.answered.append b
  | .scan i e => s.scanEntry i e
  | .unwritten _ => s
  | .setPhase p => s.setPhase p
  | .clearFill => s.clearFill
  | .endFrame => s.countFrame

/-- What the steps of a list do, one after the other, when all are done in full. -/
def applyAll (steps : List CmdStep) (s : State) : State := steps.foldl (fun s c => c.apply s) s

@[simp] theorem applyAll_nil (s : State) : applyAll [] s = s := rfl

@[simp] theorem applyAll_cons (c : CmdStep) (l : List CmdStep) (s : State) :
    applyAll (c :: l) s = applyAll l (c.apply s) := rfl

@[simp] theorem applyAll_append (l m : List CmdStep) (s : State) : applyAll (l ++ m) s = applyAll m (applyAll l s) :=
  List.foldl_append

/-- If a run of steps answers a next state, it did some first part of the list in full, and then: nothing was left and
BUSY fell; or the next step was an Emit the sink stalled on, and the rest waits; or it was one the sink failed, and
WriteFailure was raised. -/
theorem runSteps_cases {steps : List CmdStep} {s t : State} (h : runSteps steps s = .next t) :
    ∃ first rest, steps = first ++ rest ∧
      ((rest = [] ∧ t = (applyAll first s).endCommand) ∨
       (∃ b tl, rest = .emit b :: tl ∧ (applyAll first s).sink.answer = .stall ∧
          t = (applyAll first s).answered.suspend rest) ∨
       (∃ b tl, rest = .emit b :: tl ∧ (applyAll first s).sink.answer = .fail ∧
          t = (applyAll first s).answered.enterError .writeFailure)) := by
  induction steps generalizing s with
  | nil => exact ⟨[], [], rfl, .inl ⟨rfl, by simpa [runSteps, eq_comm] using h⟩⟩
  | cons c steps ih =>
    have go : ∀ {u}, runSteps steps u = .next t → u = c.apply s → ∃ first rest, c :: steps = first ++ rest ∧
      ((rest = [] ∧ t = (applyAll first s).endCommand) ∨
       (∃ b tl, rest = .emit b :: tl ∧ (applyAll first s).sink.answer = .stall ∧
          t = (applyAll first s).answered.suspend rest) ∨
       (∃ b tl, rest = .emit b :: tl ∧ (applyAll first s).sink.answer = .fail ∧
          t = (applyAll first s).answered.enterError .writeFailure)) := by
      rintro u hu rfl
      obtain ⟨first, rest, rfl, hc⟩ := ih hu
      exact ⟨c :: first, rest, rfl, hc⟩
    cases c with
    | emit b =>
      cases ha : s.sink.answer <;> simp only [runSteps, ha] at h
      · exact go h rfl
      · exact ⟨[], _, rfl, .inr (.inl ⟨b, steps, rfl, ha, by simpa [eq_comm] using h⟩)⟩
      · exact ⟨[], _, rfl, .inr (.inr ⟨b, steps, rfl, ha, by simpa [raiseError, eq_comm] using h⟩)⟩
    | unwritten i => simp [runSteps] at h
    | scan i e => exact go h rfl
    | setPhase p => exact go h rfl
    | clearFill => exact go h rfl
    | endFrame => exact go h rfl

/-- A state function that no step changes, nor the end of a run, is the same after a run. -/
theorem runSteps_keeps {α : Type} (f : State → α) {steps : List CmdStep} {s t : State}
    (hstep : ∀ c ∈ steps, ∀ u, f (c.apply u) = f u) (hans : ∀ u, f u.answered = f u)
    (hend : ∀ u, f u.endCommand = f u) (hsus : ∀ u l, f (u.suspend l) = f u)
    (herr : ∀ u, f (u.enterError .writeFailure) = f u) (h : runSteps steps s = .next t) : f t = f s := by
  obtain ⟨first, rest, rfl, hc⟩ := runSteps_cases h
  have happ : f (applyAll first s) = f s := by
    clear hc h
    induction first generalizing s with
    | nil => rfl
    | cons c l ih =>
      rw [applyAll_cons, ih (fun d hd => hstep d (by simp_all)), hstep c (by simp)]
  rcases hc with ⟨-, rfl⟩ | ⟨_, _, -, -, rfl⟩ | ⟨_, _, -, -, rfl⟩ <;> simp [hans, hend, hsus, herr, happ]

/-- The output only grows in a run (R65). -/
theorem runSteps_out {steps : List CmdStep} {s t : State} (h : runSteps steps s = .next t) :
    ∃ bs, t.out = s.out ++ bs := by
  obtain ⟨first, rest, rfl, hc⟩ := runSteps_cases h
  have happ : ∃ bs, (applyAll first s).out = s.out ++ bs := by
    clear hc h
    induction first generalizing s with
    | nil => exact ⟨[], by simp⟩
    | cons c l ih =>
      obtain ⟨bs, hbs⟩ := ih (s := c.apply s)
      cases c <;> simp_all [CmdStep.apply]
  rcases hc with ⟨-, rfl⟩ | ⟨_, _, -, -, rfl⟩ | ⟨_, _, -, -, rfl⟩ <;> simpa using happ

/-- A run does not depend on what waited before it. -/
theorem runSteps_pending {steps : List CmdStep} {s t : State} (h : runSteps steps s = .next t) :
    t.busy = true → ∃ b tl, t.pending = .emit b :: tl := by
  obtain ⟨first, rest, rfl, hc⟩ := runSteps_cases h
  rcases hc with ⟨-, rfl⟩ | ⟨b, tl, rfl, -, rfl⟩ | ⟨_, _, -, -, rfl⟩
  · simp
  · exact fun _ => ⟨b, tl, rfl⟩
  · simp

/-! ## Acceptance (R200) -/

/-- A command issued in a phase it is legal in runs its rule with BUSY set. -/
theorem issue_legal {legal : List Phase} {run : State → Result} {s : State} (hb : s.busy = false)
    (hp : s.phase ∈ legal) (he : s.phase ≠ .error) : issue legal run s = run s.beginCommand := by
  simp [issue, hb, hp, he]

/-- If an issued command answers a next state, BUSY was 0 and: it was ignored in ERROR, or its rule ran, or SequenceError
was raised. -/
theorem issue_cases {legal : List Phase} {run : State → Result} {s t : State} (h : issue legal run s = .next t) :
    s.busy = false ∧ ((s.phase = .error ∧ t = s) ∨ (s.phase ≠ .error ∧ s.phase ∈ legal ∧ run s.beginCommand = .next t) ∨
      (s.phase ≠ .error ∧ s.phase ∉ legal ∧ t = s.enterError .sequenceError)) := by
  unfold issue at h
  split at h
  · simp at h
  · rename_i hb
    refine ⟨by simpa using hb, ?_⟩
    split at h
    · rename_i hp
      exact .inl ⟨hp, by simpa [eq_comm] using h⟩
    · rename_i he
      split at h
      · rename_i hp
        exact .inr (.inl ⟨he, hp, h⟩)
      · rename_i hp
        exact .inr (.inr ⟨he, hp, by simpa [raiseError, eq_comm] using h⟩)

/-- If NOP or ABORT answers a next state, BUSY was 0 and its rule ran. -/
theorem issueAlways_cases {run : State → Result} {s t : State} (h : issueAlways run s = .next t) :
    s.busy = false ∧ run s.beginCommand = .next t := by
  unfold issueAlways at h
  split at h
  · simp at h
  · rename_i hb
    exact ⟨by simpa using hb, h⟩

/-- A turn of the block is a run of the waiting steps, or nothing. -/
theorem blockTurn_cases {s t : State} (h : blockTurn s = .next t) :
    (s.busy = true ∧ runSteps s.pending s.takeUp = .next t) ∨ (s.busy = false ∧ t = s) := by
  unfold blockTurn at h
  split at h
  · rename_i hb
    exact .inl ⟨hb, h⟩
  · rename_i hb
    exact .inr ⟨by simpa using hb, by simpa [eq_comm] using h⟩

end Sys2Proof.Machine
end

