-- ==== Sys2Proof/Laws/Commands.lean ====
section
/-! SUPPORT. What a command can do, said once per command: which next states `exec` can answer, from which frames, the
phase table and the invariant follow without unfolding a command again. -/

namespace Sys2Proof.Machine

/-- A state whose output and sink are others: all that the accepted bytes of a record change. -/
def State.onward (s : State) (out : List Byte) (sink : Sink) : State := { s with out := out, sink := sink }

/-! ## Acceptance -/

/-- While BUSY = 1 every command is the busy hazard (R261). -/
theorem exec_busy (i : Instr) {s : State} (h : s.busy = true) : exec i s = .fault .hazard := by
  cases i <;> simp [exec, execNop, execStart, execHeader, execLoopext, execFrame, execPush, execFrameEnd, execTrailer,
    execAbort, issue, issueAlways, h]

/-- BUSY <- 1 and BUSY <- 0 around nothing (R200). -/
theorem State.endCommand_beginCommand {s : State} (h : s.busy = false) : s.beginCommand.endCommand = s := by
  cases s
  simp_all [State.endCommand, State.beginCommand]

theorem State.abandon_beginCommand {s : State} (h : s.busy = false) : s.beginCommand.abandon.endCommand = s.abandon := by
  cases s
  simp_all [State.endCommand, State.beginCommand, State.abandon]

/-- Everything START can do (R190, R194, R200). -/
theorem execStart_cases {s t : State} (h : execStart s = .next t) : s.busy = false ∧
    ((s.phase = .error ∧ t = s) ∨
     (s.phase ≠ .error ∧ s.phase ≠ .idle ∧ s.phase ≠ .done ∧ t = s.enterError .sequenceError) ∨
     ((s.phase = .idle ∨ s.phase = .done) ∧ ∃ c, startCheck s = some c ∧ t = s.enterError c) ∨
     ((s.phase = .idle ∨ s.phase = .done) ∧ startCheck s = none ∧ t = s.openStream)) := by
  obtain ⟨hb, hc⟩ := issue_cases h
  refine ⟨hb, ?_⟩
  rcases hc with h | ⟨h1, h2, h3⟩ | ⟨h1, h2, h3⟩
  · exact .inl h
  · have hs : startCheck s.beginCommand = startCheck s := rfl
    unfold startStream at h3
    rw [hs] at h3
    split at h3
    · rename_i c hc
      refine .inr (.inr (.inl ⟨by simpa using h2, c, hc, ?_⟩))
      simpa [raiseError, eq_comm, State.enterError, State.beginCommand] using h3
    · rename_i hc
      refine .inr (.inr (.inr ⟨by simpa using h2, hc, ?_⟩))
      simpa [eq_comm, State.openStream, State.endCommand, State.beginCommand, hb] using h3
  · simp at h2
    exact .inr (.inl ⟨h1, h2.1, h2.2, h3⟩)

/-- A failing check of START names an error (R190). -/
theorem startCheck_ne {s : State} {c : ErrKind} (h : startCheck s = some c) :
    c = .frameDelayCountMismatch ∨ c = .emptyAnimation ∨ c = .paletteLengthError := by
  unfold startCheck at h
  split at h
  · simp_all
  · split at h
    · simp_all
    · split at h <;> simp_all

/-- Everything a command can do when it answers a next state: BUSY was 0, and it was NOP, was ignored in ERROR, raised
SequenceError, or ran in a phase that admits it (R200, R224). -/
theorem exec_cases {i : Instr} {s t : State} (h : exec i s = .next t) : s.busy = false ∧
    ((i = .nop ∧ t = s) ∨
     (s.phase = .error ∧ i ≠ .nop ∧ i ≠ .abort ∧ t = s) ∨
     (s.phase ≠ .error ∧ legalIn i s.phase = false ∧ t = s.enterError .sequenceError) ∨
     (i = .abort ∧ t = s.abandon) ∨
     (i = .start ∧ (s.phase = .idle ∨ s.phase = .done) ∧
       ((∃ c, startCheck s = some c ∧ t = s.enterError c) ∨ (startCheck s = none ∧ t = s.openStream))) ∨
     (i = .header ∧ s.phase = .hdr ∧ runSteps (headerSteps s) s.beginCommand = .next t) ∨
     (i = .loopext ∧ s.phase = .loop ∧ runSteps (loopextSteps s) s.beginCommand = .next t) ∨
     (i = .frame ∧ s.phase = .frm ∧ runSteps (frameSteps s) s.beginCommand = .next t) ∨
     (∃ b, i = .push b ∧ s.phase = .data ∧
       runSteps (pushSteps (s.bufferByte b)) (s.beginCommand.bufferByte b) = .next t) ∨
     (i = .frameEnd ∧ s.phase = .data ∧ runSteps (frameEndSteps s) s.beginCommand = .next t) ∨
     (i = .trailer ∧ s.phase = .trl ∧ runSteps trailerSteps s.beginCommand = .next t)) := by
  cases i with
  | nop =>
    simp only [exec, execNop] at h
    obtain ⟨hb, h⟩ := issueAlways_cases h
    rw [Host.Outcome.next.injEq, State.endCommand_beginCommand hb] at h
    simp [hb, h.symm]
  | abort =>
    simp only [exec, execAbort] at h
    obtain ⟨hb, h⟩ := issueAlways_cases h
    rw [Host.Outcome.next.injEq, State.abandon_beginCommand hb] at h
    simp [hb, h.symm]
  | start =>
    obtain ⟨hb, ⟨h1, rfl⟩ | ⟨h1, h2, h3, rfl⟩ | ⟨h1, c, hc, rfl⟩ | ⟨h1, hc, rfl⟩⟩ := execStart_cases h
    · simp [hb, h1]
    · simp [hb, h1, legalIn, h2, h3]
    · simp [hb, h1, hc]
    · simp [hb, h1, hc]
  | header =>
    simp only [exec, execHeader] at h
    obtain ⟨hb, ⟨h1, rfl⟩ | ⟨h1, h2, h3⟩ | ⟨h1, h2, rfl⟩⟩ := issue_cases h
    · exact ⟨hb, .inr <| .inl ⟨h1, by simp, by simp, rfl⟩⟩
    · exact ⟨hb, .inr <| .inr <| .inr <| .inr <| .inr <| .inl ⟨rfl, by simpa using h2, h3⟩⟩
    · exact ⟨hb, .inr <| .inr <| .inl ⟨h1, by simpa [legalIn] using h2, rfl⟩⟩
  | loopext =>
    simp only [exec, execLoopext] at h
    obtain ⟨hb, ⟨h1, rfl⟩ | ⟨h1, h2, h3⟩ | ⟨h1, h2, rfl⟩⟩ := issue_cases h
    · exact ⟨hb, .inr <| .inl ⟨h1, by simp, by simp, rfl⟩⟩
    · exact ⟨hb, .inr <| .inr <| .inr <| .inr <| .inr <| .inr <| .inl ⟨rfl, by simpa using h2, h3⟩⟩
    · exact ⟨hb, .inr <| .inr <| .inl ⟨h1, by simpa [legalIn] using h2, rfl⟩⟩
  | frame =>
    simp only [exec, execFrame] at h
    obtain ⟨hb, ⟨h1, rfl⟩ | ⟨h1, h2, h3⟩ | ⟨h1, h2, rfl⟩⟩ := issue_cases h
    · exact ⟨hb, .inr <| .inl ⟨h1, by simp, by simp, rfl⟩⟩
    · exact ⟨hb, .inr <| .inr <| .inr <| .inr <| .inr <| .inr <| .inr <| .inl ⟨rfl, by simpa using h2, h3⟩⟩
    · exact ⟨hb, .inr <| .inr <| .inl ⟨h1, by simpa [legalIn] using h2, rfl⟩⟩
  | push b =>
    simp only [exec, execPush] at h
    obtain ⟨hb, ⟨h1, rfl⟩ | ⟨h1, h2, h3⟩ | ⟨h1, h2, rfl⟩⟩ := issue_cases h
    · exact ⟨hb, .inr <| .inl ⟨h1, by simp, by simp, rfl⟩⟩
    · exact ⟨hb, .inr <| .inr <| .inr <| .inr <| .inr <| .inr <| .inr <| .inr <| .inl ⟨b, rfl, by simpa using h2, h3⟩⟩
    · exact ⟨hb, .inr <| .inr <| .inl ⟨h1, by simpa [legalIn] using h2, rfl⟩⟩
  | frameEnd =>
    simp only [exec, execFrameEnd] at h
    obtain ⟨hb, ⟨h1, rfl⟩ | ⟨h1, h2, h3⟩ | ⟨h1, h2, rfl⟩⟩ := issue_cases h
    · exact ⟨hb, .inr <| .inl ⟨h1, by simp, by simp, rfl⟩⟩
    · exact ⟨hb, .inr <| .inr <| .inr <| .inr <| .inr <| .inr <| .inr <| .inr <| .inr <| .inl ⟨rfl, by simpa using h2, h3⟩⟩
    · exact ⟨hb, .inr <| .inr <| .inl ⟨h1, by simpa [legalIn] using h2, rfl⟩⟩
  | trailer =>
    simp only [exec, execTrailer] at h
    obtain ⟨hb, ⟨h1, rfl⟩ | ⟨h1, h2, h3⟩ | ⟨h1, h2, rfl⟩⟩ := issue_cases h
    · exact ⟨hb, .inr <| .inl ⟨h1, by simp, by simp, rfl⟩⟩
    · exact ⟨hb, .inr <| .inr <| .inr <| .inr <| .inr <| .inr <| .inr <| .inr <| .inr <| .inr <| ⟨rfl, by simpa using h2, h3⟩⟩
    · exact ⟨hb, .inr <| .inr <| .inl ⟨h1, by simpa [legalIn] using h2, rfl⟩⟩

/-! ## The bytes of a record -/

/-- A record being emitted is cut by a stall, failed, or accepted whole, and then the rest runs (R66). -/
theorem emits_cases {bs : List Byte} {rest : List CmdStep} {s t : State} (h : runSteps (emits bs ++ rest) s = .next t) :
    ∃ o k, (∃ b tl, t = (s.onward o k).suspend (emits (b :: tl) ++ rest)) ∨
      t = (s.onward o k).enterError .writeFailure ∨ runSteps rest (s.onward o k) = .next t := by
  induction bs generalizing s with
  | nil => exact ⟨s.out, s.sink, .inr (.inr h)⟩
  | cons b bs ih =>
    simp only [emits_cons, List.cons_append, runSteps] at h
    split at h
    · obtain ⟨o, k, hh⟩ := ih h
      exact ⟨o, k, hh⟩
    · exact ⟨s.out, s.sink.next, .inl ⟨b, bs, (Host.Outcome.next.inj h).symm⟩⟩
    · exact ⟨s.out, s.sink.next, .inr (.inl (Host.Outcome.next.inj h).symm)⟩

/-- A sink that never fails does not fail the byte on offer, and goes on so. -/
theorem Sink.neverFails.answer {k : Sink} (h : k.neverFails) : k.answer ≠ .fail := by
  intro ha
  unfold Sink.answer at ha
  split at ha
  · exact h.1 ha
  · rename_i a l hl
    subst ha
    exact h.2 .fail (by simp [hl]) rfl

theorem Sink.neverFails.next {k : Sink} (h : k.neverFails) : k.next.neverFails :=
  ⟨h.1, fun a ha => h.2 a (List.mem_of_mem_tail ha)⟩

/-- A run of steps on a sink that never fails enters ERROR only if a step of it says so (R66, R220). -/
theorem runSteps_neverFails {steps : List CmdStep} {s t : State}
    (hs : ∀ p, .setPhase p ∈ steps → p ≠ .error) (hk : s.sink.neverFails) (hp : s.phase ≠ .error)
    (h : runSteps steps s = .next t) : t.phase ≠ .error := by
  induction steps generalizing s with
  | nil =>
    obtain rfl := Host.Outcome.next.inj h
    exact hp
  | cons c steps ih =>
    have hs' : ∀ p, .setPhase p ∈ steps → p ≠ .error := fun p hm => hs p (by simp [hm])
    cases c with
    | emit b =>
      simp only [runSteps] at h
      split at h
      · exact ih (s := s.answered.append b) hs' hk.next hp h
      · obtain rfl := Host.Outcome.next.inj h
        exact hp
      · exact absurd ‹_› hk.answer
    | scan i e => exact ih (s := s.scanEntry i e) hs' hk hp h
    | unwritten i => simp [runSteps] at h
    | setPhase p => exact ih (s := s.setPhase p) hs' hk (hs p (by simp)) h
    | clearFill => exact ih (s := s.clearFill) hs' hk hp h
    | endFrame =>
      refine ih (s := s.countFrame) hs' hk ?_ h
      simp only [State.countFrame_phase]
      split <;> simp

/-! ## HEADER -/

/-- What the steps of HEADER before its last one can change: output, sink and the three transparency flags; the flags
stay consistent (R29, R124). -/
structure TableChange (s u : State) : Prop where
  only : ∃ o k tf ti tm, u = { s with out := o, sink := k, tflag := tf, tidx := ti, tmulti := tm }
  index : (s.tflag = false → s.tidx = 0) → (u.tflag = false → u.tidx = 0)
  multi : (s.tmulti = true → s.tflag = true) → (u.tmulti = true → u.tflag = true)

theorem TableChange.refl (s : State) : TableChange s s := ⟨⟨_, _, _, _, _, rfl⟩, id, id⟩

theorem TableChange.trans {a b c : State} (h : TableChange a b) (g : TableChange b c) : TableChange a c := by
  refine ⟨?_, g.index ∘ h.index, g.multi ∘ h.multi⟩
  obtain ⟨_, _, _, _, _, rfl⟩ := h.only
  obtain ⟨_, _, _, _, _, rfl⟩ := g.only
  exact ⟨_, _, _, _, _, rfl⟩

/-- HEADER's table is cut by a stall, failed, or done, and then the rest runs. -/
theorem table_cases {table rest : List CmdStep} {s t : State} (hc : ∀ c ∈ table, c.ofTable)
    (h : runSteps (table ++ rest) s = .next t) :
    ∃ u, TableChange s u ∧ ((∃ b tl, (∀ c ∈ tl, c.ofTable) ∧ t = u.suspend (.emit b :: tl ++ rest)) ∨
      t = u.enterError .writeFailure ∨ runSteps rest u = .next t) := by
  induction table generalizing s with
  | nil => exact ⟨s, .refl s, .inr (.inr h)⟩
  | cons c table ih =>
    have ht : ∀ c ∈ table, c.ofTable := fun d hd => hc d (by simp [hd])
    cases c with
    | emit b =>
      simp only [List.cons_append, runSteps] at h
      split at h
      · obtain ⟨u, hu, hh⟩ := ih ht h
        exact ⟨u, TableChange.trans (b := s.answered.append b) ⟨⟨_, _, _, _, _, rfl⟩, id, id⟩ hu, hh⟩
      · exact ⟨s.answered, ⟨⟨_, _, _, _, _, rfl⟩, id, id⟩, .inl ⟨b, table, ht, by simpa [eq_comm] using h⟩⟩
      · exact ⟨s.answered, ⟨⟨_, _, _, _, _, rfl⟩, id, id⟩, .inr (.inl (by simpa [raiseError, eq_comm] using h))⟩
    | scan i e =>
      obtain ⟨u, hu, hh⟩ := ih (s := s.scanEntry i e) ht h
      refine ⟨u, TableChange.trans (b := s.scanEntry i e) ⟨⟨_, _, _, _, _, rfl⟩, ?_, ?_⟩ hu, hh⟩
      · intro hi
        simp only [State.scanEntry_tflag, State.scanEntry_tidx, Bool.or_eq_false_iff]
        rintro ⟨h1, h2⟩
        simp [h2, hi h1]
      · intro hi
        simp only [State.scanEntry_tflag, State.scanEntry_tmulti, Bool.or_eq_true, Bool.and_eq_true]
        rintro (h1 | h1)
        · exact .inl (hi h1)
        · exact .inr h1.1
    | unwritten i => simp [runSteps] at h
    | setPhase p => exact absurd (hc (.setPhase p) (by simp)) (by simp [CmdStep.ofTable])
    | clearFill => exact absurd (hc .clearFill (by simp)) (by simp [CmdStep.ofTable])
    | endFrame => exact absurd (hc .endFrame (by simp)) (by simp [CmdStep.ofTable])

/-- HEADER's steps are those of the signature, descriptor and table, and then the phase (R120). -/
theorem headerSteps_form (s : State) : ∃ table, headerSteps s = table ++ [.setPhase s.phaseAfterHeader] ∧
    ∀ c ∈ table, c.ofTable = true := by
  refine ⟨emits s.headerBytes ++ (List.range s.paletteLength).flatMap (entrySteps s.palette), by simp [headerSteps], ?_⟩
  intro c hc
  simp only [emits, List.mem_append, List.mem_map, List.mem_flatMap] at hc
  rcases hc with ⟨b, _, rfl⟩ | ⟨i, _, hi⟩
  · rfl
  · unfold entrySteps at hi
    split at hi
    · simp only [emits, List.mem_append, List.mem_map, List.mem_singleton] at hi
      rcases hi with ⟨b, _, rfl⟩ | rfl <;> rfl
    · obtain rfl := List.mem_singleton.1 hi
      rfl

/-- Everything HEADER's rule can do (R120, R126). -/
theorem header_cases {s t : State} (h : runSteps (headerSteps s) s.beginCommand = .next t) :
    ∃ u, TableChange s.beginCommand u ∧
      ((∃ b tl, (∀ c ∈ tl, c.ofTable = true) ∧ t = u.suspend (.emit b :: tl ++ [.setPhase s.phaseAfterHeader])) ∨
       t = u.enterError .writeFailure ∨ t = (u.setPhase s.phaseAfterHeader).endCommand) := by
  obtain ⟨table, ht, hc⟩ := headerSteps_form s
  rw [ht] at h
  obtain ⟨u, hu, hh⟩ := table_cases hc h
  refine ⟨u, hu, ?_⟩
  rcases hh with hh | hh | hh
  · exact .inl hh
  · exact .inr (.inl hh)
  · exact .inr (.inr (by simpa [runSteps, eq_comm] using hh))

/-! ## The other commands that emit -/

/-- Everything LOOPEXT's rule can do (R140). -/
theorem loopext_cases {s t : State} (h : runSteps (loopextSteps s) s.beginCommand = .next t) :
    ∃ o k, (∃ b bs, t = (s.onward o k).suspend (emits (b :: bs) ++ [.setPhase .frm])) ∨
      t = (s.onward o k).enterError .writeFailure ∨ t = ((s.onward o k).setPhase .frm).endCommand := by
  obtain ⟨o, k, ⟨b, bs, rfl⟩ | rfl | hh⟩ := emits_cases h
  · exact ⟨o, k, .inl ⟨b, bs, rfl⟩⟩
  · exact ⟨o, k, .inr (.inl rfl)⟩
  · obtain rfl := Host.Outcome.next.inj hh
    exact ⟨o, k, .inr (.inr rfl)⟩

/-- Everything FRAME's rule can do (R150, R154). -/
theorem frame_cases {s t : State} (h : runSteps (frameSteps s) s.beginCommand = .next t) :
    ∃ o k, (∃ b bs, t = (s.onward o k).suspend (emits (b :: bs) ++ [.clearFill, .setPhase .data])) ∨
      t = (s.onward o k).enterError .writeFailure ∨ t = ((s.onward o k).clearFill.setPhase .data).endCommand := by
  obtain ⟨o, k, ⟨b, bs, rfl⟩ | rfl | hh⟩ := emits_cases h
  · exact ⟨o, k, .inl ⟨b, bs, rfl⟩⟩
  · exact ⟨o, k, .inr (.inl rfl)⟩
  · obtain rfl := Host.Outcome.next.inj hh
    exact ⟨o, k, .inr (.inr rfl)⟩

/-- Everything TRAILER's rule can do (R192). -/
theorem trailer_cases {s t : State} (h : runSteps trailerSteps s.beginCommand = .next t) :
    ∃ o k, t = (s.onward o k).suspend [.emit trailerByte, .setPhase .done] ∨
      t = (s.onward o k).enterError .writeFailure ∨ t = ((s.onward o k).setPhase .done).endCommand := by
  simp only [trailerSteps, runSteps] at h
  split at h <;> obtain rfl := Host.Outcome.next.inj h
  · exact ⟨_, _, .inr (.inr rfl)⟩
  · exact ⟨_, _, .inl rfl⟩
  · exact ⟨_, _, .inr (.inl rfl)⟩

/-- The steps that emit the held bytes, as a record and SB_CNT <- 0. -/
theorem blockSteps_eq (s : State) : blockSteps s = emits (s.sbCnt :: s.held) ++ [.clearFill] := by simp [blockSteps]

/-- Everything PUSH's rule can do (R170, R174). -/
theorem push_cases {s t : State} {b : Byte}
    (h : runSteps (pushSteps (s.bufferByte b)) (s.beginCommand.bufferByte b) = .next t) :
    ((s.bufferByte b).sbCnt ≠ 255 ∧ t = (s.bufferByte b).endCommand) ∨
    ((s.bufferByte b).sbCnt = 255 ∧ ∃ o k,
      (∃ c bs, t = ((s.bufferByte b).onward o k).suspend (emits (c :: bs) ++ [.clearFill])) ∨
      t = ((s.bufferByte b).onward o k).enterError .writeFailure ∨
      t = ((s.bufferByte b).onward o k).clearFill.endCommand) := by
  unfold pushSteps at h
  split at h
  · rename_i hc
    rw [blockSteps_eq] at h
    refine .inr ⟨hc, ?_⟩
    obtain ⟨o, k, ⟨c, bs, rfl⟩ | rfl | hh⟩ := emits_cases h
    · exact ⟨o, k, .inl ⟨c, bs, rfl⟩⟩
    · exact ⟨o, k, .inr (.inl rfl)⟩
    · obtain rfl := Host.Outcome.next.inj hh
      exact ⟨o, k, .inr (.inr rfl)⟩
  · rename_i hc
    obtain rfl := Host.Outcome.next.inj h
    exact .inl ⟨hc, rfl⟩

/-- The steps of FRAME_END as two records (R156, R172). -/
theorem frameEndSteps_eq (s : State) : frameEndSteps s = emits (if s.sbCnt = 0 then [] else s.sbCnt :: s.held) ++
    ((if s.sbCnt = 0 then [] else [.clearFill]) ++ [.emit blockTerminator, .endFrame]) := by
  unfold frameEndSteps flushSteps blockSteps
  split <;> simp

/-- The terminator of FRAME_END, and what follows it (R156, R158). -/
theorem terminator_cases {s t : State} (h : runSteps [.emit blockTerminator, .endFrame] s = .next t) :
    ∃ o k, t = (s.onward o k).suspend [.emit blockTerminator, .endFrame] ∨
      t = (s.onward o k).enterError .writeFailure ∨ t = (s.onward o k).countFrame.endCommand := by
  simp only [runSteps] at h
  split at h <;> obtain rfl := Host.Outcome.next.inj h
  · exact ⟨_, _, .inr (.inr rfl)⟩
  · exact ⟨_, _, .inl rfl⟩
  · exact ⟨_, _, .inr (.inl rfl)⟩

/-- Everything FRAME_END's rule can do: cut or failed in the flush, or, with SB_CNT = 0, at the terminator, or done
(R156, R158). -/
theorem frameEnd_cases {s t : State} (h : runSteps (frameEndSteps s) s.beginCommand = .next t) :
    ∃ o k, (s.sbCnt ≠ 0 ∧ ∃ c bs, t = (s.onward o k).suspend
        (emits (c :: bs) ++ [.clearFill, .emit blockTerminator, .endFrame])) ∨
      (s.sbCnt ≠ 0 ∧ t = (s.onward o k).enterError .writeFailure) ∨
      t = (s.clearFill.onward o k).suspend [.emit blockTerminator, .endFrame] ∨
      t = (s.clearFill.onward o k).enterError .writeFailure ∨ t = (s.clearFill.onward o k).countFrame.endCommand := by
  rw [frameEndSteps_eq] at h
  have key : ∀ o k, runSteps [.emit blockTerminator, .endFrame] (s.beginCommand.clearFill.onward o k) = .next t →
      ∃ o k, t = (s.clearFill.onward o k).suspend [.emit blockTerminator, .endFrame] ∨
        t = (s.clearFill.onward o k).enterError .writeFailure ∨ t = (s.clearFill.onward o k).countFrame.endCommand :=
    fun o k hk => by
      obtain ⟨o', k', hh⟩ := terminator_cases hk
      exact ⟨o', k', hh⟩
  by_cases h0 : s.sbCnt = 0
  · simp only [if_pos h0] at h
    have hs : s.beginCommand = s.beginCommand.clearFill.onward s.out s.sink := by
      simp [State.onward, State.clearFill, State.beginCommand, h0]
    rw [hs] at h
    obtain ⟨o, k, hh⟩ := key _ _ h
    exact ⟨o, k, .inr (.inr hh)⟩
  · simp only [if_neg h0] at h
    obtain ⟨o, k, ⟨b, bs, rfl⟩ | rfl | hh⟩ := emits_cases h
    · exact ⟨o, k, .inl ⟨h0, b, bs, rfl⟩⟩
    · exact ⟨o, k, .inr (.inl ⟨h0, rfl⟩)⟩
    · obtain ⟨o, k, hh⟩ := key o k hh
      exact ⟨o, k, .inr (.inr hh)⟩

end Sys2Proof.Machine
end

