-- ==== Sys2Proof/Laws/Memory.lean ====
section
/-! SUPPORT. The laws of the palette RAM: what a read finds after a write, what a write leaves alone, and that every write
keeps the canonical form and whole entries. -/

namespace Sys2Proof.Machine

/-- A byte read after a byte write: the byte written at its own offset, the old byte at every other. -/
theorem Memory.readByte_writeByte (m : Memory) (a x : Nat) (b : Byte) :
    (m.writeByte a b).readByte x = if x = a then some b else m.readByte x := by
  induction m with
  | nil =>
    by_cases h : x = a
    · simp [writeByte, readByte, h]
    · simp [writeByte, readByte, h, Ne.symm h]
  | cons c rest ih =>
    obtain ⟨k, v⟩ := c
    simp only [writeByte]
    split
    · by_cases h : x = a
      · simp [readByte, h]
      · simp [readByte, h, Ne.symm h]
    · split
      · rename_i hak
        subst hak
        by_cases h : x = a
        · simp [readByte, h]
        · simp [readByte, h, Ne.symm h]
      · simp only [readByte, ih]
        by_cases h : x = a
        · subst h; simp; omega
        · simp [h]

/-- What a write lists: the written byte and bytes that were listed. -/
theorem Memory.mem_writeByte {m : Memory} {a : Nat} {b : Byte} {c : Host.Cell} (h : c ∈ m.writeByte a b) :
    c = (a, b) ∨ c ∈ m := by
  induction m with
  | nil => simpa [writeByte] using h
  | cons d rest ih =>
    simp only [writeByte] at h
    split at h
    · simpa using h
    · split at h
      · rcases List.mem_cons.1 h with h | h
        · exact .inl h
        · exact .inr (List.mem_cons_of_mem _ h)
      · rcases List.mem_cons.1 h with h | h
        · exact .inr (by simp [h])
        · exact (ih h).imp_right (List.mem_cons_of_mem _)

/-- A byte write keeps the canonical form. -/
theorem Memory.writeByte_wf {m : Memory} (h : m.wf) (a : Nat) (b : Byte) : (m.writeByte a b).wf := by
  induction m with
  | nil => simp [writeByte, Memory.wf]
  | cons c rest ih =>
    obtain ⟨k, v⟩ := c
    obtain ⟨hk, hr⟩ := List.pairwise_cons.1 h
    simp only [writeByte]
    split
    · rename_i hlt
      refine List.pairwise_cons.2 ⟨fun d hd => ?_, h⟩
      rcases List.mem_cons.1 hd with rfl | hd
      · exact hlt
      · exact Nat.lt_trans hlt (hk d hd)
    · split
      · rename_i hak
        subst hak
        exact List.pairwise_cons.2 ⟨hk, hr⟩
      · refine List.pairwise_cons.2 ⟨fun d hd => ?_, ih hr⟩
        rcases mem_writeByte hd with rfl | hd
        · show k < a
          omega
        · exact hk d hd

/-- An entry write keeps the canonical form. -/
theorem Memory.writeEntry_wf {m : Memory} (h : m.wf) (i : Nat) (e : Word) : (m.writeEntry i e).wf :=
  writeByte_wf (writeByte_wf (writeByte_wf (writeByte_wf h _ _) _ _) _ _) _ _

/-- The bytes of the palette after an entry write. -/
theorem Memory.readByte_writeEntry (m : Memory) (i x : Nat) (e : Word) :
    (m.writeEntry i e).readByte x =
      if x = entryOffset i + 3 then some (alpha e) else if x = entryOffset i + 2 then some (blue e)
      else if x = entryOffset i + 1 then some (green e) else if x = entryOffset i then some (red e)
      else m.readByte x := by
  simp only [writeEntry, readByte_writeByte]

/-- An entry write leaves every byte outside the entry's four. -/
theorem Memory.readByte_writeEntry_outside {m : Memory} {i x : Nat} {e : Word}
    (h : x < entryOffset i ∨ entryOffset i + 4 ≤ x) : (m.writeEntry i e).readByte x = m.readByte x := by
  rw [readByte_writeEntry]
  repeat rw [if_neg (by omega)]

/-- The four bytes of a word, put together again. -/
theorem word_of_bytes (e : Word) : alpha e ++ (blue e ++ (green e ++ red e)) = e := by
  apply BitVec.eq_of_getLsbD_eq
  intro i hi
  simp only [alpha, blue, green, red, BitVec.getLsbD_append, BitVec.getLsbD_extractLsb']
  by_cases h0 : i < 8
  · simp [h0, show i < 16 by omega, show i < 24 by omega]
  · by_cases h1 : i < 16
    · simp [h0, h1, show i < 24 by omega, show i - 8 < 8 by omega, show 8 + (i - 8) = i by omega]
    · by_cases h2 : i < 24
      · simp [h1, h2, show i - 16 < 8 by omega, show 16 + (i - 16) = i by omega]
      · simp [h2, show i - 24 < 8 by omega, show 24 + (i - 24) = i by omega]

/-- An entry reads as it was written. -/
theorem Memory.readEntry_writeEntry_self (m : Memory) (i : Nat) (e : Word) : (m.writeEntry i e).readEntry i = some e := by
  simp only [readEntry, readByte_writeEntry]
  simp
  exact word_of_bytes e

/-- Every other entry reads as before. -/
theorem Memory.readEntry_writeEntry_ne {m : Memory} {i j : Nat} (e : Word) (h : i ≠ j) :
    (m.writeEntry i e).readEntry j = m.readEntry j := by
  have h' : ∀ k < 4, (m.writeEntry i e).readByte (entryOffset j + k) = m.readByte (entryOffset j + k) := fun k hk =>
    readByte_writeEntry_outside (by simp only [entryOffset]; omega)
  simp only [readEntry, h' 1 (by omega), h' 2 (by omega), h' 3 (by omega)]
  rw [show entryOffset j = entryOffset j + 0 from rfl, h' 0 (by omega)]

/-- The empty palette RAM holds whole entries. -/
theorem Memory.wholeEntries_nil : Memory.wholeEntries [] := ⟨fun _ _ _ => rfl, by simp⟩

/-- A write of PAL[i] keeps whole entries, inside the palette window (R61, R64). -/
theorem Memory.wholeEntries_writeEntry {m : Memory} (h : m.wholeEntries) (i : Fin 256) (e : Word) :
    (m.writeEntry i.val e).wholeEntries := by
  refine ⟨fun j k hk => ?_, fun c hc => ?_⟩
  · by_cases hij : j = i.val
    · subst hij
      obtain rfl | rfl | rfl | rfl : k = 0 ∨ k = 1 ∨ k = 2 ∨ k = 3 := by omega
      all_goals simp [Memory.readByte_writeEntry]
    · rw [readByte_writeEntry_outside (by simp only [entryOffset]; omega), show entryOffset j = entryOffset j + 0 from rfl,
        readByte_writeEntry_outside (by simp only [entryOffset]; omega)]
      exact h.1 j k hk
  · have := i.isLt
    have inside : ∀ k < 4, Config.paletteBase ≤ entryOffset i.val + k ∧ entryOffset i.val + k < Config.paletteEnd := by
      intro k hk
      simp only [entryOffset, Config.paletteBase, Config.paletteEnd]
      omega
    unfold Memory.writeEntry at hc
    rcases mem_writeByte hc with rfl | hc
    · exact inside 3 (by omega)
    rcases mem_writeByte hc with rfl | hc
    · exact inside 2 (by omega)
    rcases mem_writeByte hc with rfl | hc
    · exact inside 1 (by omega)
    rcases mem_writeByte hc with rfl | hc
    · exact inside 0 (by omega)
    exact h.2 c hc

end Sys2Proof.Machine
end

