-- ==== Sys2Proof/Laws/PerInstr.lean ====
section
/-! SUPPORT. Per command: the three fields of its command word (R80, R82). -/

namespace Sys2Proof.Laws.WordFields

/-- The command word of `i` has its opcode in [7:0], its operand in [15:8] and 0 in [31:16]. -/
def Statement (i : Instr) : Prop :=
  (encode i).extractLsb' 0 8 = opcode i ∧ (encode i).extractLsb' 8 8 = immOf i ∧ (encode i).extractLsb' 16 16 = 0

theorem nop : Statement .nop := ⟨rfl, rfl, rfl⟩
theorem start : Statement .start := ⟨rfl, rfl, rfl⟩
theorem header : Statement .header := ⟨rfl, rfl, rfl⟩
theorem loopext : Statement .loopext := ⟨rfl, rfl, rfl⟩
theorem frame : Statement .frame := ⟨rfl, rfl, rfl⟩
theorem push (imm : Byte) : Statement (.push imm) := by
  refine ⟨?_, ?_, ?_⟩ <;> apply BitVec.eq_of_getLsbD_eq <;> intro k hk <;>
    simp only [encode, immOf, opcode, BitVec.getLsbD_extractLsb', BitVec.getLsbD_append, hk]
  · simp [hk, show k < 16 by omega]
  · simp [hk, show ¬ 8 + k < 8 by omega, show 8 + k < 16 by omega]
  · simp [show ¬ 16 + k < 16 by omega]
theorem frameEnd : Statement .frameEnd := ⟨rfl, rfl, rfl⟩
theorem trailer : Statement .trailer := ⟨rfl, rfl, rfl⟩
theorem abort : Statement .abort := ⟨rfl, rfl, rfl⟩

end Sys2Proof.Laws.WordFields
end

