-- ==== Sys2Proof/Tests/Slice0.lean ====
section
/-! SUPPORT. The model's own tests. Expected values come from the spec: the worked examples and tables named beside each
test, or the rule's own arithmetic by hand. The second half gives every obligation with hypotheses a concrete state that
meets them. -/

namespace Sys2Proof.Tests

open Sys2Proof.Machine Sys2Proof.Claims

-- One theorem after the other: each kernel decision waits for all before it, and would else hold a thread of its own.
set_option Elab.async false

/-! ## Small states -/

/-- What a result holds, if it is a next state. -/
def after {α : Type} (r : Result) (f : State → α) : Option α :=
  match r with
  | .next t => some (f t)
  | .fault _ => none
  | .refused _ => none

/-- Why a result stops, if it stops with a fault. -/
def stops (r : Result) : Option Fault :=
  match r with
  | .next _ => none
  | .fault f => some f
  | .refused _ => none

/-- A sink with a few answers, then accepting. -/
def sinkOf (l : List SinkAnswer) : Sink := { script := l, rest := .accept }

/-- A palette from its first entries. -/
def paletteOf (es : List Word) : Memory := (es.zipIdx 0).foldl (fun m p => m.writeEntry p.2 p.1) []

/-- A stream of one frame with N = 4, in phase p (the values of R197). -/
def inPhase (p : Phase) : State :=
  { State.reset with phase := p, fcL := 1, palK := 2, mcs := 3, frameCount := 1, delayCount := 1, palLen := 4 }

/-- The palette of W1: opaque black, white, red, blue. -/
def w1Palette : Memory := paletteOf [0xFF000000, 0xFFFFFFFF, 0xFF0000FF, 0xFFFF0000]

/-- Ready for the HEADER of W1. -/
def w1 : State := { inPhase .hdr with palette := w1Palette, frameMax := 0x00020002, delay := 10 }

/-- In DATA with n bytes b held. -/
def holding (n : Nat) (b : Byte) : State :=
  { inPhase .data with sbBuf := Vector.replicate 255 b, sbCnt := BitVec.ofNat 8 n }

/-- An idle block with the counts and palette length of a START. -/
def counts (f d n : Word) : State := { State.reset with frameCount := f, delayCount := d, palLen := n }

/-- TRAILER cut by a stall. -/
def stalled : State := { inPhase .trl with busy := true, pending := trailerSteps }

/-- A frame with bounds (1, 2) to (4, 6), with n palette entries. -/
def frameOf (n : Nat) : HostFrame := ⟨1, 2, 4, 6, List.replicate n 0xFF000000, [0x08]⟩

/-- A compressor whose bytes show what it was given: the code size, then the indices. -/
def echo (m : BitVec 4) (indices : List Byte) : List Byte := m.setWidth 8 :: indices

/-- A state whose next move is m. -/
def facing (s : State) (m : Move) : State := { s with agenda := [m] }

/-! ## WellFormed: an ill-formed term for each check -/

/-- R81: opcode 0x09 is reserved. -/
theorem test_fields_reserved_opcode : (CmdFields.mk 0x09 0 0).wellFormed = false := by decide
/-- R81: RSV must be 0. -/
theorem test_fields_reserved_bits : (CmdFields.mk 0x01 0 1).wellFormed = false := by decide
/-- R81: IMM8 must be 0 outside PUSH. -/
theorem test_fields_immediate : (CmdFields.mk 0x02 1 0).wellFormed = false := by decide
/-- R81: PUSH has an immediate. -/
theorem test_fields_push : (CmdFields.mk 0x05 0xFF 0).wellFormed = true := by decide
/-- R61: a 16-bit read. -/
theorem test_access_width : (Access.read 0x004 .bits16).wellFormed = false := by decide
/-- R61: an offset that is no multiple of 4. -/
theorem test_access_offset : (Access.write 0x006 .bits32 0).wellFormed = false := by decide
/-- R97: a value wider than the bus. -/
theorem test_line_value : (HostLine.wr .palLen (2 ^ 32)).wellFormed = false := by decide
/-- R98: a bound or a delay that does not fit its field. -/
theorem test_line_setframe : (HostLine.setFrame (2 ^ 16) 0 0 0 0).wellFormed = false ∧
    (HostLine.setFrame 0 (2 ^ 16) 0 0 0).wellFormed = false ∧ (HostLine.setFrame 0 0 (2 ^ 16) 0 0).wellFormed = false ∧
    (HostLine.setFrame 0 0 0 (2 ^ 16) 0).wellFormed = false ∧ (HostLine.setFrame 0 0 0 0 (2 ^ 32)).wellFormed = false := by
  decide
/-- R98: a count that does not fit its register. -/
theorem test_line_begin : (HostLine.beginStream (2 ^ 32) 0 0 0).wellFormed = false ∧
    (HostLine.beginStream 0 (2 ^ 32) 0 0).wellFormed = false ∧ (HostLine.beginStream 0 0 (2 ^ 32) 0).wellFormed = false ∧
    (HostLine.beginStream 0 0 0 (2 ^ 32)).wellFormed = false := by decide
/-- R98: the same of ENCODE1. -/
theorem test_line_encode1 : (HostLine.encode1 (2 ^ 32) 0 0 0 0 0 []).wellFormed = false ∧
    (HostLine.encode1 4 (2 ^ 16) 0 0 0 0 []).wellFormed = false ∧
    (HostLine.encode1 4 0 (2 ^ 16) 0 0 0 []).wellFormed = false ∧
    (HostLine.encode1 4 0 0 (2 ^ 16) 0 0 []).wellFormed = false ∧
    (HostLine.encode1 4 0 0 0 (2 ^ 16) 0 []).wellFormed = false ∧
    (HostLine.encode1 4 0 0 0 0 (2 ^ 32) []).wellFormed = false := by decide

/-! ## Decoding: the words of R82, and of 95_test_vectors.md section 2.5 -/

theorem test_decode_words : decodeTableWord 32 0x00000000 = some .nop ∧ decodeTableWord 32 0x00000001 = some .start ∧
    decodeTableWord 32 0x00000002 = some .header ∧ decodeTableWord 32 0x00000003 = some .loopext ∧
    decodeTableWord 32 0x00000004 = some .frame ∧ decodeTableWord 32 0x00000505 = some (.push 0x05) ∧
    decodeTableWord 32 0x00000006 = some .frameEnd ∧ decodeTableWord 32 0x00000007 = some .trailer ∧
    decodeTableWord 32 0x00000008 = some .abort := by decide +kernel
/-- P1: the words of PUSH 0x08, 0x21 and 0x93. -/
theorem test_decode_push : decodeTableWord 32 0x00000805 = some (.push 0x08) ∧
    decodeTableWord 32 0x00002105 = some (.push 0x21) ∧ decodeTableWord 32 0x0000FF05 = some (.push 0xFF) := by
  decide +kernel
theorem test_decode_rejects : decode 0x00000009 = .error .reservedOpcode ∧ decode 0x00010000 = .error .nonzeroReserved ∧
    decode 0x00000102 = .error .nonzeroImmediate ∧ decode 0x80000005 = .error .nonzeroReserved := by
  refine ⟨rfl, rfl, rfl, rfl⟩
/-- P3: the word of PUSH 0x2B. -/
theorem test_encode_push : encode (.push 0x2B) = 0x00002B05 := by decide

/-! ## One step of each command -/

/-- R193: NOP in DATA with SB_CNT = 7. -/
theorem test_nop : after (exec .nop (holding 7 0)) (fun t => (t.phase, t.sbCnt)) = some (.data, 7) := by decide +kernel
/-- 95_test_vectors.md 2.5: NOP in ERROR with ERR 3. -/
theorem test_nop_in_error : after (exec .nop { inPhase .error with err := .writeFailure }) State.statusWord =
    some 0x00000037 := by decide +kernel

/-- R197. -/
theorem test_start : after (exec .start (counts 1 1 4)) (fun t => (t.fcL, t.statusWord, t.infoWord, t.out)) =
    some (1, 0x00000001, 0x00000023, []) := by decide +kernel
/-- 95_test_vectors.md 2.5: the latches of N = 256 and LOOP_COUNT = -1. -/
theorem test_start_256 : after (exec .start { counts 1 1 256 with loopCount := 0xFFFFFFFF })
    (fun t => (t.loopNormWord, t.infoWord)) = some (0, 0x00000089) := by decide +kernel
/-- W5, W6 and R196 (a), (c), (d): the errors of START in their order. -/
theorem test_start_errors : after (exec .start (counts 2 1 4)) State.statusWord = some 0x00000017 ∧
    after (exec .start (counts 0 1 4)) State.statusWord = some 0x00000017 ∧
    after (exec .start State.reset) State.statusWord = some 0x00000027 ∧
    after (exec .start (counts 2 2 3)) State.statusWord = some 0x00000067 ∧
    after (exec .start (counts 2 2 1)) State.statusWord = some 0x00000067 ∧
    after (exec .start (counts 2 2 512)) State.statusWord = some 0x00000067 := by decide +kernel

/-- R128. -/
theorem test_header : after (exec .header w1) (fun t => (t.out, t.tflag, t.tidx, t.phase)) =
    some ([0x47, 0x49, 0x46, 0x38, 0x39, 0x61, 0x02, 0x00, 0x02, 0x00, 0xF1, 0x00, 0x00, 0x00, 0x00, 0x00,
      0xFF, 0xFF, 0xFF, 0xFF, 0x00, 0x00, 0x00, 0x00, 0xFF], false, 0, .frm) := by decide +kernel
/-- 95_test_vectors.md 2.1, alpha bytes FF 80 FF FE. -/
theorem test_header_transparency : after (exec .header
    { w1 with palette := paletteOf [0xFF000000, 0x80FFFFFF, 0xFF0000FF, 0xFEFF0000], fcL := 2 })
    (fun t => (t.tflag, t.tidx, t.tmulti, t.phase)) = some (true, 1, true, .loop) := by decide +kernel
/-- P5: the sink fails byte 20, inside PAL[2]; PAL[3], which is not opaque, is never scanned. -/
theorem test_header_write_failure : after (exec .header
    { w1 with
      palette := paletteOf [0xFF000000, 0xFFFFFFFF, 0xFF0000FF, 0xFE00FF00]
      sink := sinkOf (List.replicate 20 .accept ++ [.fail]) })
    (fun t => (t.out, t.statusWord, t.transWord)) =
    some ([0x47, 0x49, 0x46, 0x38, 0x39, 0x61, 0x02, 0x00, 0x02, 0x00, 0xF1, 0x00, 0x00, 0x00, 0x00, 0x00,
      0xFF, 0xFF, 0xFF, 0xFF], 0x00000037, 0) := by decide +kernel
/-- 95_test_vectors.md 2.1: HEADER with PAL[1] never written. -/
theorem test_header_unwritten : stops (exec .header { w1 with palette := paletteOf [0xFF000000], palK := 1 }) =
    some .unwrittenPalette := by decide +kernel

/-- R144, 95_test_vectors.md 2.2: LOOP_L = 1. -/
theorem test_loopext : after (exec .loopext { inPhase .loop with loopL := 1 }) (fun t => (t.out, t.phase)) =
    some ([0x21, 0xFF, 0x0B, 0x4E, 0x45, 0x54, 0x53, 0x43, 0x41, 0x50, 0x45, 0x32, 0x2E, 0x30, 0x03, 0x01, 0x01, 0x00,
      0x00], .frm) := by decide +kernel

/-- R160. -/
theorem test_frame : after (exec .frame { w1 with phase := .frm, sbCnt := 9 }) (fun t => (t.out, t.phase, t.sbCnt)) =
    some ([0x21, 0xF9, 0x04, 0x00, 0x0A, 0x00, 0x00, 0x00, 0x2C, 0x00, 0x00, 0x00, 0x00, 0x02, 0x00, 0x02, 0x00, 0x00,
      0x03], .data, 0) := by decide +kernel
/-- 95_test_vectors.md 2.3, third and fourth rows: every field distinct, and a width that wraps. -/
theorem test_frame_fields :
    after (exec .frame { inPhase .frm with
      tflag := true, tidx := 255, delay := 0xFFFF, frameMin := 0x00040003, frameMax := 0x0008000A, mcs := 9 }) State.out =
    some [0x21, 0xF9, 0x04, 0x01, 0xFF, 0xFF, 0xFF, 0x00, 0x2C, 0x03, 0x00, 0x04, 0x00, 0x07, 0x00, 0x04, 0x00, 0x00, 0x09]
    ∧ after (exec .frame { inPhase .frm with
      delay := 0x1234, frameMin := 0x00000005, frameMax := 0x00010002, mcs := 2 }) State.out =
    some [0x21, 0xF9, 0x04, 0x00, 0x34, 0x12, 0x00, 0x00, 0x2C, 0x05, 0x00, 0x00, 0x00, 0xFD, 0xFF, 0x01, 0x00, 0x00, 0x02]
    := by decide +kernel

/-- R170: one byte is buffered and nothing leaves. -/
theorem test_push : after (exec (.push 0x08) (inPhase .data)) (fun t => (t.out, t.sbCnt, t.sbBuf.toList.head?)) =
    some ([], 1, some 0x08) := by decide +kernel
/-- R171: the 255th byte. -/
theorem test_push_full : after (exec (.push 0x93) (holding 254 0x11)) (fun t => (t.out, t.sbCnt)) =
    some (0xFF :: (List.replicate 254 0x11 ++ [0x93]), 0) := by decide +kernel

/-- 95_test_vectors.md 2.4, C = 3 (R160): 03 c0 c1 c2 00. -/
theorem test_frame_end : after (exec .frameEnd
    { inPhase .data with sbBuf := ((Vector.replicate 255 0x93).set 0 0x08).set 1 0x21, sbCnt := 3 })
    (fun t => (t.out, t.framesDone, t.sbCnt, t.phase)) = some ([0x03, 0x08, 0x21, 0x93, 0x00], 1, 0, .trl) := by
  decide +kernel
/-- 95_test_vectors.md 2.4, C = 0, with frames to come (R157). -/
theorem test_frame_end_empty : after (exec .frameEnd { inPhase .data with fcL := 2 }) (fun t => (t.out, t.phase)) =
    some ([0x00], .frm) := by decide +kernel

/-- R192. -/
theorem test_trailer : after (exec .trailer (inPhase .trl)) (fun t => (t.out, t.statusWord)) =
    some ([0x3B], 0x00000006) := by decide +kernel
/-- 95_test_vectors.md 2.5: TRAILER in DATA. -/
theorem test_trailer_early : after (exec .trailer (inPhase .data)) (fun t => (t.out, t.statusWord)) =
    some ([], 0x00000057) := by decide +kernel

/-- 95_test_vectors.md 2.5: ABORT in DATA with SB_FILL 7 (R195): the latches stay. -/
theorem test_abort : after (exec .abort (holding 7 0)) (fun t => (t.statusWord, t.sbFillWord, t.infoWord)) =
    some (0, 0, 0x00000023) := by decide +kernel
/-- 95_test_vectors.md 2.5: ABORT in ERROR with ERR 3. -/
theorem test_abort_in_error : after (exec .abort { inPhase .error with err := .writeFailure, tmulti := true })
    State.statusWord = some 0 := by decide +kernel

/-! ## The host bus: 95_test_vectors.md 2.5 and 2.7 -/

theorem test_cmd_illegal : after (step (facing State.reset (commandMove 0x00000009))) State.statusWord =
    some 0x00000047 := by decide +kernel
theorem test_cmd_ignored_in_error : after (step (facing { inPhase .error with err := .frameDelayCountMismatch }
    (commandMove 0x00000009))) State.statusWord = some 0x00000017 := by decide +kernel
theorem test_read_reserved : after (step (facing w1 (.access (.read 0x038 .bits32)))) State.reads = some [0] ∧
    after (step (facing w1 (.access (.read 0x800 .bits32)))) State.reads = some [0] := by decide +kernel
theorem test_write_delay : after (step (facing w1 (writeMove .delay 0x12345678))) State.delayWord =
    some 0x00005678 := by decide +kernel
theorem test_write_palette : after (step (facing State.reset (writeMove (.pal 3) 0x80112233)))
    (fun t => (t.palette.readEntry 3, t.palette.readEntry 4)) = some (some 0x80112233, none) := by decide +kernel
theorem test_bus_faults : stops (step (facing State.reset (readMove (.pal 4)))) = some .unwrittenPalette ∧
    stops (step (facing State.reset (.access (.read 0x004 .bits16)))) = some .busAccess ∧
    stops (step (facing State.reset (.access (.read 0x006 .bits32)))) = some .busAccess ∧
    stops (step (facing stalled (writeMove .frameMin 1))) = some .hazard := by decide +kernel
/-- R261: a read while BUSY = 1. -/
theorem test_read_busy : after (step (facing stalled (readMove .status))) State.reads = some [0x0000000D] := by
  decide +kernel

/-! ## The host of R99 -/

/-- R99: in ERROR the host stops with STATUS.ERR (the STATUS of 95_test_vectors.md 2.5, code 1); the sink's turn in its
call and what follows the call stay to come. -/
theorem test_look_stops : after (step { inPhase .error with
    err := .frameDelayCountMismatch, agenda := [.checkError, .wait, .turn, writeMove .delay 1, .callEnd, readMove .info] })
    (fun t => (t.agenda, t.reads)) = some ([.turn, readMove .info], [0x00000017]) := by decide +kernel
/-- R99: in HDR the host goes on (STATUS of R197). -/
theorem test_look_goes_on : after (step { inPhase .hdr with agenda := [.checkError, .wait, .callEnd] })
    (fun t => (t.agenda, t.reads)) = some ([.wait, .callEnd], [0x00000001]) := by decide +kernel
/-- R99, R161: with INFO = 0x23 the compressor is given code size 3, and DATA sends its bytes. -/
theorem test_compressed : after (step (facing (inPhase .data) (compressedMove echo [0x08])))
    (fun t => (t.agenda, t.reads)) = some (
      [commandMove 0x00000305, .wait, .checkError, commandMove 0x00000805, .wait, .checkError], [0x00000023]) := by
  decide +kernel
/-- R99: LOOPEXT only for several frames. -/
theorem test_encodeAll_loopext : commandMove 0x00000003 ∉ encodeAllMoves echo [frameOf 4] [10] 0 ∧
    commandMove 0x00000003 ∈ encodeAllMoves echo [frameOf 4, frameOf 4] [10, 20] 0 := by decide +kernel
/-- R99: a negative loop count is written in two's complement (R37), and frame 0's bounds as R39 lays them out. -/
theorem test_encodeAll_operands : writeMove .loopCount 0xFFFFFFFF ∈ encodeAllMoves echo [frameOf 4] [10] (-1) ∧
    writeMove .frameMax 0x00060004 ∈ encodeAllMoves echo [frameOf 4] [10] 0 := by decide +kernel
/-- Log 14: there is no PAL[256] to write. -/
theorem test_palette_too_long : (paletteMoves (List.replicate 257 0)).length = 256 := by decide +kernel

/-! ## Witnesses: states that meet the hypotheses of the obligations, with boundary values -/

theorem witness_DecodeAndEncodeAgree : (Instr.push 0xFF).wellFormed = true ∧ encode (.push 0xFF) = 0x0000FF05 := by decide

theorem witness_IllegalWordsRaiseIllegalCommand :
    (∀ w ∈ ([0x00000009, 0x000000FF, 0x00010000, 0x80000005, 0x00000102, 0x0000FF08] : List Word), ∀ i, decode w ≠ .ok i) ∧
    decode 0x0000FF05 = .ok (.push 0xFF) ∧
    (facing (inPhase .data) (commandMove 0x00000009)).agenda = [.access (.write 0x000 .bits32 0x00000009)] ∧
    (inPhase .data).busy = false ∧ (inPhase .data).phase ≠ .error ∧ (inPhase .error).phase = .error ∧
    (0x00000001 : Word) ≠ 0 ∧ (0x00000009 : Word) ≠ 8 := by
  refine ⟨?_, rfl, rfl, rfl, by decide, rfl, by decide, by decide⟩
  intro w hw i
  simp only [List.mem_cons, List.not_mem_nil, or_false] at hw
  rcases hw with rfl | rfl | rfl | rfl | rfl | rfl <;> intro h <;> nomatch h

theorem witness_CmdWriteRunsDecodedCommand :
    (facing (inPhase .data) (commandMove 0x0000FF05)).agenda = [.access (.write 0x000 .bits32 0x0000FF05)] ∧
    decode 0x0000FF05 = .ok (.push 0xFF) := ⟨rfl, rfl⟩

theorem witness_OutOfPhaseRaisesSequenceError : (inPhase .hdr).busy = false ∧ (inPhase .hdr).phase ≠ .error ∧
    legalIn .start (inPhase .hdr).phase = false ∧ legalIn (.push 0) (inPhase .trl).phase = false := by decide

theorem witness_BusyBlockFaultsOnWrites : stalled.busy = true ∧ (0x000 : Offset).toNat % 4 = 0 ∧
    (0xFFC : Offset).toNat % 4 = 0 ∧
    (facing stalled (.access (.write 0xFFC .bits32 0))).agenda = [.access (.write 0xFFC .bits32 0)] ∧
    (facing stalled (readMove .status)).agenda = [.access (.read 0x004 .bits32)] := by decide +kernel

theorem witness_ErrorPhaseIgnoresCommands : (inPhase .error).busy = false ∧ (inPhase .error).phase = .error ∧
    Instr.start ≠ .nop ∧ Instr.trailer ≠ .abort ∧ (0xFFFFFFFF : Word) ≠ 0x00000000 ∧ (0x00000007 : Word) ≠ 0x00000008 ∧
    (facing (inPhase .error) (writeMove (.pal 0) 1)).agenda = [.access (.write (BitVec.ofNat 12 (0x400 + 4 * 0)) .bits32 1)] ∧
    (facing (inPhase .error) (writeMove (.pal 255) 1)).agenda =
      [.access (.write (BitVec.ofNat 12 (0x400 + 4 * 255)) .bits32 1)] := by decide +kernel

/-- The invariant in ERROR, after a failed full block (R174): SB_CNT is 255 there. -/
def failedBlock : State := { inPhase .error with err := .writeFailure, sbCnt := 255 }

theorem failedBlock_inv : failedBlock.Inv where
  canonical := List.Pairwise.nil
  whole := Memory.wholeEntries_nil
  errPhase := by decide
  busyPending := by decide
  pendingFits := fun h => absurd h (by decide)
  lengths := by decide
  frames := by decide
  counted := by decide
  notBegun := by decide
  fresh := by decide
  several := by decide
  due := by decide
  last := by decide
  fill := by decide
  index := by decide
  multi := by decide

/-- The invariant says nothing of the moves to come. -/
theorem facing_inv {s : State} (h : s.Inv) (m : Move) : (facing s m).Inv :=
  ⟨h.canonical, h.whole, h.errPhase, h.busyPending, h.pendingFits, h.lengths, h.frames, h.counted, h.notBegun, h.fresh,
    h.several, h.due, h.last, h.fill, h.index, h.multi⟩

theorem witness_OnlyAbortAndResetLeaveError : (∀ m, (facing failedBlock m).Inv) ∧ failedBlock.phase = .error ∧
    after (step (facing failedBlock (commandMove 0x00000001))) State.phase = some .error ∧
    after (step (facing failedBlock (commandMove 0x00000008))) State.phase = some .idle ∧
    after (step (facing failedBlock .reset)) State.phase = some .idle := by
  refine ⟨facing_inv failedBlock_inv, ?_⟩
  decide +kernel

/-- The invariant in HDR, with a palette of two entries written. -/
def twoColors : State := { inPhase .hdr with palK := 1, mcs := 2, palette := paletteOf [0xFF000000, 0x00FFFFFF] }

theorem twoColors_whole : twoColors.palette.wholeEntries :=
  Memory.wholeEntries_writeEntry (Memory.wholeEntries_writeEntry Memory.wholeEntries_nil 0 0xFF000000) 1 0x00FFFFFF

theorem twoColors_inv : twoColors.Inv where
  canonical := by decide +kernel
  whole := twoColors_whole
  errPhase := by decide
  busyPending := by decide
  pendingFits := fun h => absurd h (by decide)
  lengths := by decide +kernel
  frames := by decide
  counted := by decide
  notBegun := by decide
  fresh := by decide
  several := by decide
  due := by decide
  last := by decide
  fill := by decide
  index := by decide
  multi := by decide

/-- The invariant in IDLE, with the registers of a START. -/
theorem counts_inv (f d n : Word) : (counts f d n).Inv where
  canonical := List.Pairwise.nil
  whole := Memory.wholeEntries_nil
  errPhase := by simp [counts, State.reset]
  busyPending := by simp [counts, State.reset]
  pendingFits := by simp [counts, State.reset]
  lengths := by simp [counts, State.reset, Phase.streaming]
  frames := by simp [counts, State.reset, Phase.streaming]
  counted := by simp [counts, State.reset]
  notBegun := by simp [counts, State.reset]
  fresh := by simp [counts, State.reset]
  several := by simp [counts, State.reset]
  due := by simp [counts, State.reset]
  last := by simp [counts, State.reset]
  fill := by simp [counts, State.reset]
  index := by simp [counts, State.reset]
  multi := by simp [counts, State.reset]

theorem witness_CommandsFollowPhaseTable : twoColors.Inv ∧ (counts 1 1 256).Inv ∧ (counts 1 2 256).Inv ∧
    after (exec .header twoColors) (fun t => (t.busy, t.phase)) = some (false, .frm) ∧
    legalIn .header twoColors.phase = true ∧ twoColors.sink.neverFails ∧
    after (exec .header { twoColors with sink := sinkOf [.stall] }) (fun t => (t.busy, t.phase)) = some (true, .hdr) ∧
    after (exec .start (counts 1 1 256)) State.phase = some .hdr ∧
    after (exec .start (counts 1 2 256)) State.phase = some .error := by
  refine ⟨twoColors_inv, counts_inv _ _ _, counts_inv _ _ _, ?_⟩
  decide +kernel

theorem witness_ErrorsOtherThanWriteFailureAreAtomic :
    after (exec .trailer (inPhase .data)) (fun t => (t.phase, t.err)) = some (.error, .sequenceError) ∧
    after (exec .start (counts 0 0 4)) (fun t => (t.phase, t.err)) = some (.error, .emptyAnimation) ∧
    after (exec .trailer { inPhase .trl with sink := sinkOf [.fail] }) (fun t => (t.phase, t.err)) =
      some (.error, .writeFailure) := by decide +kernel

theorem witness_StartChecksThenLatches : (counts 1 2 2).frameCount ≠ (counts 1 2 2).delayCount ∧
    (counts 0 0 2).frameCount = 0 ∧ (counts 1 1 2).palLen.toNat = 2 ^ 1 ∧ (counts 1 1 256).palLen.toNat = 2 ^ 8 ∧
    (¬ ∃ k, 1 ≤ k ∧ k ≤ 8 ∧ (counts 1 1 3).palLen.toNat = 2 ^ k) ∧ (counts 1 1 2).busy = false ∧
    (counts 1 1 2).phase = .idle ∧ ({ counts 1 1 2 with phase := .done } : State).phase = .done ∧
    (inPhase .hdr).phase ≠ .idle ∧ (inPhase .trl).phase ≠ .done ∧ (inPhase .data).phase ≠ .error := by
  refine ⟨by decide, by decide, by decide, by decide, ?_, by decide, by decide, by decide, by decide, by decide, by decide⟩
  rintro ⟨k, h1, h8, hk⟩
  interval_cases k <;> exact absurd hk (by decide)

theorem witness_StartComputesSmallestCodeSize :
    after (exec .start (counts 1 1 2)) (fun t => (t.phase, t.mcs)) = some (.hdr, 2) ∧ (counts 1 1 2).phase ≠ .hdr ∧
    after (exec .start (counts 1 1 256)) (fun t => (t.phase, t.mcs)) = some (.hdr, 9) := by decide +kernel

theorem witness_TrailerEndsStream : (inPhase .trl).busy = false ∧ (inPhase .trl).err = .noError ∧
    (inPhase .trl).tmulti = false ∧ (inPhase .trl).sink.answer = .accept ∧ (sinkOf [.fail]).answer = .fail ∧
    after (exec .trailer (inPhase .trl)) State.phase = some .done ∧ (inPhase .frm).phase ≠ .trl := by decide +kernel

theorem witness_NopChangesNothing : (holding 7 0).busy = false ∧ (0x00000100 : Word).toNat % 2 ^ 8 = 0 ∧
    (0x80000000 : Word).toNat % 2 ^ 8 = 0 ∧ (0x00000100 : Word) ≠ 0 ∧ (0x80000000 : Word) ≠ 0 := by decide

theorem witness_AbortReturnsToIdle : failedBlock.busy = false ∧ after (exec .abort failedBlock) State.phase = some .idle ∧
    after (exec .start failedBlock) State.phase = some .error := by decide +kernel

theorem witness_HeaderEmitsTableAndLatchesTransparency : twoColors.busy = false ∧ twoColors.phase = .hdr ∧
    twoColors.palK.toNat = 1 ∧ ([0xFF000000, 0x00FFFFFF] : List Word).length = 2 ^ 1 ∧
    twoColors.palette.readEntry 0 = some 0xFF000000 ∧ twoColors.palette.readEntry 1 = some 0x00FFFFFF ∧
    twoColors.tflag = false ∧ twoColors.tidx = 0 ∧ twoColors.tmulti = false ∧
    twoColors.sink.accepts (13 + 3 * 2 ^ 1) := by decide +kernel

/-- A palette of 256 white opaque entries, as its bytes. -/
def whitePalette : Memory := (List.range 1024).map (fun a => (0x400 + a, 0xFF))

theorem whitePalette_readByte (a n : Nat) (i : Nat) (h : i < n) :
    Memory.readByte ((List.range' a n).map (fun a => (0x400 + a, 0xFF))) (0x400 + a + i) = some 0xFF := by
  induction n generalizing a i with
  | zero => omega
  | succ n ih =>
    simp only [List.range'_succ, List.map_cons, Memory.readByte]
    cases i with
    | zero => simp
    | succ i =>
      rw [if_neg (by omega), show 0x400 + a + (i + 1) = 0x400 + (a + 1) + i by omega]
      exact ih (a + 1) i (by omega)

theorem witness_HeaderEmits256Entries : ({ twoColors with palK := 8, palette := whitePalette } : State).palK.toNat = 8 ∧
    (List.replicate 256 (0xFFFFFFFF : Word)).length = 2 ^ 8 ∧ twoColors.sink.accepts (13 + 3 * 2 ^ 8) ∧
    (∀ (i : Nat) (h : i < (List.replicate 256 (0xFFFFFFFF : Word)).length),
      whitePalette.readEntry i = some (List.replicate 256 (0xFFFFFFFF : Word))[i]) := by
  refine ⟨by decide, List.length_replicate, ?_, ?_⟩
  · intro j _
    simp [Sink.after, twoColors, inPhase, State.reset, Sink.answer]
  · intro i h
    have hb : ∀ k < 4, whitePalette.readByte (entryOffset i + k) = some 0xFF := fun k hk => by
      have hi : i < 256 := List.length_replicate (n := 256) (a := (0xFFFFFFFF : Word)) ▸ h
      have := whitePalette_readByte 0 1024 (4 * i + k) (by omega)
      rwa [← List.range_eq_range', show 0x400 + 0 + (4 * i + k) = entryOffset i + k by
        simp only [entryOffset, Config.paletteBase]; omega] at this
    have h0 := hb 0 (by omega)
    simp only [Nat.add_zero] at h0
    simp only [Memory.readEntry, h0, hb 1 (by omega), hb 2 (by omega), hb 3 (by omega), List.getElem_replicate]
    decide

theorem witness_HeaderWriteFailureKeepsPrecedingBytes : (sinkOf [.fail]).failsAt 0 ∧
    (sinkOf (List.replicate 13 .accept ++ [.fail])).failsAt 13 ∧ (sinkOf (List.replicate 18 .accept ++ [.fail])).failsAt 18 ∧
    18 < 13 + 3 * 2 ^ 1 ∧ twoColors.busy = false ∧ twoColors.phase = .hdr ∧ twoColors.palK.toNat = 1 ∧
    twoColors.palette.readEntry 0 = some 0xFF000000 ∧ twoColors.palette.readEntry 1 = some 0x00FFFFFF ∧
    twoColors.tflag = false ∧ twoColors.tidx = 0 ∧ twoColors.tmulti = false := by decide +kernel

theorem witness_HeaderFaultsOnUnwrittenEntry : (inPhase .hdr).busy = false ∧ (inPhase .hdr).palette.readEntry 0 = none ∧
    0 < 2 ^ (inPhase .hdr).palK.toNat ∧ (inPhase .hdr).sink.accepts (13 + 3 * 0) ∧
    (∀ i < 3, ((paletteOf [1, 2, 3]).readEntry i).isSome) ∧ (paletteOf [1, 2, 3]).readEntry 3 = none ∧
    3 < 2 ^ (inPhase .hdr).palK.toNat ∧ (inPhase .hdr).sink.accepts (13 + 3 * 3) := by decide +kernel

theorem witness_LoopextEmitsNetscapeExtension : (inPhase .loop).busy = false ∧ (inPhase .loop).sink.accepts 19 ∧
    (sinkOf [.fail]).failsAt 0 ∧ (sinkOf (List.replicate 18 .accept ++ [.fail])).failsAt 18 ∧
    (inPhase .frm).phase ≠ .loop ∧ (inPhase .frm).phase ≠ .error := by decide +kernel

theorem witness_FrameEmitsFrameHeader : (inPhase .frm).busy = false ∧ (inPhase .frm).phase = .frm ∧
    (inPhase .frm).sink.accepts 19 := by decide +kernel

theorem witness_FrameWriteFailureKeepsFill : (inPhase .frm).busy = false ∧ (inPhase .frm).phase = .frm ∧
    (sinkOf [.fail]).failsAt 0 ∧ (sinkOf (List.replicate 18 .accept ++ [.fail])).failsAt 18 := by decide +kernel

theorem witness_PushBuffersOrEmitsFullBlock : (holding 0 0).sbCnt.toNat < 254 ∧ (holding 253 0).sbCnt.toNat < 254 ∧
    (holding 254 0).sbCnt.toNat = 254 ∧ (holding 254 0).sink.accepts 256 ∧ (holding 254 0).busy = false ∧
    (holding 254 0).phase = .data := by decide +kernel

theorem witness_PushWriteFailureLeavesFillFull : (holding 254 0).busy = false ∧ (holding 254 0).phase = .data ∧
    (holding 254 0).sbCnt.toNat = 254 ∧ (holding 0 0).sbCnt.toNat < 254 ∧ (holding 253 0).sbCnt.toNat < 254 ∧
    (sinkOf [.fail]).failsAt 0 ∧
    (sinkOf (List.replicate 255 .accept ++ [.fail])).failsAt 255 := by decide +kernel

theorem witness_FrameEndFlushesAndCounts : (holding 0 0).busy = false ∧ (holding 0 0).phase = .data ∧
    (holding 0 0).framesDone.toNat < (holding 0 0).fcL.toNat ∧ (holding 0 0).sink.accepts (flushStream (holding 0 0)).length ∧
    (holding 1 0).sink.accepts (flushStream (holding 1 0)).length ∧
    (holding 254 0).sink.accepts (flushStream (holding 254 0)).length := by decide +kernel

theorem witness_FrameEndWriteFailureDoesNotCount : (holding 3 0).busy = false ∧ (holding 3 0).phase = .data ∧
    (flushStream (holding 0 0)).length = 1 ∧ (flushStream (holding 3 0)).length = 5 ∧ (sinkOf [.fail]).failsAt 0 ∧
    (sinkOf [.accept, .accept, .accept, .fail]).failsAt 3 ∧
    (sinkOf [.accept, .accept, .accept, .accept, .fail]).failsAt 4 := by decide +kernel

theorem witness_PushedBytesLeaveAsSubBlocks : (inPhase .data).busy = false ∧ (inPhase .data).phase = .data ∧
    (inPhase .data).sbCnt = 0 ∧ (inPhase .data).sink.accepts (0 + (0 + 254) / 255 + 1) ∧
    (inPhase .data).sink.accepts (256 + (256 + 254) / 255 + 1) := by decide +kernel

theorem witness_RunToDoneIsOneStream : twoColors.Inv ∧ twoColors.busy = false ∧ twoColors.phase = .hdr ∧
    twoColors.sink = { script := [], rest := .accept } ∧
    ([0xFF000000, 0x00FFFFFF] : List Word).length = 2 ^ twoColors.palK.toNat ∧
    twoColors.palette.readEntry 0 = some 0xFF000000 ∧ twoColors.palette.readEntry 1 = some 0x00FFFFFF ∧
    after (execAll [.header, .frame, .push 0x44, .frameEnd, .trailer] twoColors) State.phase = some .done := by
  refine ⟨twoColors_inv, ?_⟩
  decide +kernel

theorem witness_CommandsLeaveHostSideUnchanged : after (exec .frame (inPhase .frm)) State.phase = some .data ∧
    stalled.agenda = [] ∧ after (step stalled) State.phase = some .done := by decide +kernel

theorem witness_CommandsChangeOnlyWhatTheirRulesName :
    after (exec (.push 1) (inPhase .data)) State.sbCnt = some 1 ∧
    after (exec .start (counts 1 1 2)) State.fcL = some 1 ∧
    after (exec .header { twoColors with sink := sinkOf [.accept, .stall] }) State.busy = some true := by decide +kernel

theorem witness_OfferedByteIsAnswered : stalled.busy = true ∧ stalled.pending = [.emit 0x3B, .setPhase .done] ∧
    stalled.sink.answer = .accept ∧ (sinkOf [.stall]).answer = .stall ∧ (sinkOf [.fail]).answer = .fail := by
  decide +kernel

theorem witness_StallOnlyDelaysCommand :
    ({ inPhase .frm with sink := sinkOf [.accept, .stall] } : State).sink.script = [.accept] ++ .stall :: [] ∧
    (∀ a ∈ [SinkAnswer.accept], a = .accept) ∧ (inPhase .frm).busy = false ∧ (inPhase .frm).pending = [] ∧
    after (exec .frame { inPhase .frm with sink := sinkOf [.accept, .stall] }) State.busy = some true := by decide +kernel

theorem witness_StalledSinkKeepsBusy :
    (∀ moves, (facing stalled .turn).agenda ≠ .reset :: moves) ∧ stalled.busy = true ∧
    stalled.pending = .emit 0x3B :: [.setPhase .done] ∧
    after (step { facing stalled .turn with sink := { script := [], rest := .stall } }) State.busy = some true := by
  refine ⟨fun moves h => ?_, by decide +kernel⟩
  exact absurd (List.cons.inj h).1 (by simp)

theorem witness_OutputStreamOnlyGrows :
    (∀ w rest, (facing w1 (readMove .status)).agenda ≠ .access (.write 0x000 .bits32 w) :: rest) ∧ w1.busy = false ∧
    after (step (facing w1 (readMove .status))) State.out = some [] := by
  refine ⟨fun w rest h => ?_, by decide +kernel⟩
  exact absurd (List.cons.inj h).1 (by simp [readMove])

theorem witness_MisalignedOrNarrowAccessFaults : (Access.read 0x004 .bits16).wellFormed = false ∧
    (Access.write 0xFFD .bits32 0).wellFormed = false ∧ (Access.write 0x000 .bits8 0).wellFormed = false ∧
    (facing w1 (.access (.read 0x004 .bits16))).agenda = [.access (.read 0x004 .bits16)] := by decide +kernel

theorem witness_ReadsReturnRegisterTable : (facing w1 (.access (.read 0x400 .bits32))).agenda =
      [.access (.read 0x400 .bits32)] ∧
    ([0x000, 0x004, 0x034, 0x038, 0x3FC, 0x400, 0x7FC, 0x800, 0xFFC] : List Offset).all (·.toNat % 4 == 0) = true ∧
    w1.palette.readEntry ((0x400 - 0x400) / 4) = some 0xFF000000 ∧
    (Memory.writeEntry [] 255 7).readEntry ((0x7FC - 0x400) / 4) = some 7 := by decide +kernel

theorem witness_ReadOfUnwrittenEntryFaults : w1.palette.readEntry ((0x410 - 0x400) / 4) = none ∧
    State.reset.palette.readEntry ((0x400 - 0x400) / 4) = none ∧ w1.palette.readEntry ((0x7FC - 0x400) / 4) = none := by
  decide +kernel

theorem witness_WritesStoreRegisterTable : w1.busy = false ∧
    (facing w1 (.access (.write 0x020 .bits32 0x12345678))).agenda = [.access (.write 0x020 .bits32 0x12345678)] ∧
    ([0x004, 0x008, 0x00C, 0x010, 0x014, 0x018, 0x01C, 0x020, 0x024, 0x3FC, 0x800, 0xFFC] : List Offset).all
      (·.toNat % 4 == 0) = true := by decide +kernel

theorem witness_PaletteWriteStoresOneEntry : w1.busy = false ∧ w1.palette.wf ∧
    (facing w1 (writeMove (.pal 0) 1)).agenda = [.access (.write (BitVec.ofNat 12 (0x400 + 4 * 0)) .bits32 1)] ∧
    (facing w1 (writeMove (.pal 255) 1)).agenda = [.access (.write (BitVec.ofNat 12 (0x400 + 4 * 255)) .bits32 1)] ∧
    0x3FF < entryOffset 0 ∧ entryOffset 255 + 4 ≤ 0x800 := by decide +kernel

theorem witness_OnlyCmdWritesHaveSideEffects : (0x004 : Offset) ≠ 0x000 ∧
    after (step (facing w1 (.access (.read 0x004 .bits32)))) State.reads = some [0x00000001] ∧
    after (step (facing w1 (.access (.write 0xFFC .bits32 1)))) State.phase = some .hdr := by decide +kernel

theorem witness_WaitPollsUntilNotBusy : (facing w1 .wait).agenda = [.wait] ∧ w1.busy = false ∧
    (facing stalled .wait).agenda = [.wait] ∧ stalled.busy = true := by decide +kernel

theorem witness_SetFrameStoresBoundsAndDelay : (HostLine.setFrame 65535 0 65535 65535 65536).wellFormed = true ∧
    w1.busy = false ∧ ({ w1 with agenda := setFrameMoves 65535 0 65535 65535 65536 } : State).agenda =
      (HostLine.setFrame 65535 0 65535 65535 65536).moves ++ [] := by decide +kernel

theorem witness_BeginOpensStream : (HostLine.beginStream 1 1 0 256).wellFormed = true ∧
    (HostLine.beginStream 1 2 0 2).wellFormed = true ∧ State.reset.busy = false ∧ State.reset.phase = .idle ∧
    (256 : Nat) = 2 ^ 8 ∧ ({ State.reset with agenda := beginMoves 1 1 0 256 } : State).agenda =
      (HostLine.beginStream 1 1 0 256).moves ++ [] := by decide +kernel

theorem witness_HostLooksAtStatusAndInfo :
    (facing (inPhase .hdr) .checkError).agenda = .checkError :: [] ∧ (inPhase .hdr).phase ≠ .error ∧
    failedBlock.phase = .error ∧ (∀ m ∈ [Move.wait, readMove .info], m ≠ .callEnd ∧ m ≠ .turn ∧ m ≠ .reset) ∧
    ({ failedBlock with agenda := .checkError :: ([.wait, readMove .info] ++ .callEnd :: [.turn]) } : State).agenda =
      .checkError :: ([.wait, readMove .info] ++ .callEnd :: [.turn]) ∧
    (facing (inPhase .data) (compressedMove echo [0x08])).agenda = compressedMove echo [0x08] :: [] := by
  refine ⟨rfl, by decide, rfl, by decide, rfl, rfl⟩

/-- Each of START's three errors, and the four premises of the state. -/
theorem witness_EncodeAllStopsAfterFailedBegin : State.reset.busy = false ∧ State.reset.phase = .idle ∧
    beginError [frameOf 4] [] = some .frameDelayCountMismatch ∧ beginError [] [] = some .emptyAnimation ∧
    beginError [frameOf 257] [10] = some .paletteLengthError ∧ (firstPalette [frameOf 257]).length < 2 ^ 32 ∧
    ({ State.reset with agenda := encodeAllMoves echo [frameOf 257] [10] (-1) } : State).agenda =
      encodeAllMoves echo [frameOf 257] [10] (-1) ++ [] := by
  refine ⟨rfl, rfl, by decide +kernel, by decide +kernel, by decide +kernel, by decide +kernel, (List.append_nil _).symm⟩

/-- The smallest and the largest palette and loop count; one frame and two. -/
theorem witness_EncodeAllWritesOneStream : State.reset.busy = false ∧ State.reset.phase = .idle ∧
    (firstPalette [frameOf 2]).length = 2 ^ 1 ∧ (firstPalette [frameOf 256, frameOf 0]).length = 2 ^ 8 ∧
    [frameOf 2].length = [10].length ∧ [frameOf 256, frameOf 0].length = [10, 65536].length ∧
    -(2 ^ 31) ≤ (-(2 ^ 31) : Int) ∧ (2 ^ 31 - 1 : Int) < 2 ^ 31 ∧
    State.reset.sink = { script := [], rest := .accept } ∧
    ({ State.reset with agenda := encodeAllMoves echo [frameOf 256, frameOf 0] [10, 65536] (-(2 ^ 31)) } : State).agenda =
      encodeAllMoves echo [frameOf 256, frameOf 0] [10, 65536] (-(2 ^ 31)) ++ [] := by
  refine ⟨rfl, rfl, by decide +kernel, by decide +kernel, rfl, rfl, by decide, by decide, rfl, (List.append_nil _).symm⟩

theorem witness_ResetStopsCommandAndKeepsOutput : (facing stalled .reset).agenda = [.reset] := rfl

theorem witness_StepKeepsInvariant : (facing twoColors (instrMove .header)).Inv ∧
    after (step (facing twoColors (instrMove .header))) State.phase = some .frm ∧
    (facing failedBlock (instrMove .abort)).Inv ∧
    after (step (facing failedBlock (instrMove .abort))) State.phase = some .idle := by
  refine ⟨facing_inv twoColors_inv _, by decide +kernel, facing_inv failedBlock_inv _, by decide +kernel⟩

end Sys2Proof.Tests
end

section
/-! PROOF. The decoder and the encoder (30_encoding.md R80 to R85): a word decodes to a command exactly when it is the word
the encoder writes for it. -/

namespace Sys2Proof.Machine

/-- Bits put side by side, as numbers. -/
theorem toNat_append_add {m n : Nat} (x : BitVec m) (y : BitVec n) : (x ++ y).toNat = x.toNat * 2 ^ n + y.toNat := by
  rw [BitVec.toNat_append, ← Nat.shiftLeft_add_eq_or_of_lt y.isLt, Nat.shiftLeft_eq]

/-- The decoder's checks, together (R81). -/
theorem decode_eq_ok_iff {w : Word} {i : Instr} : decode w = .ok i ↔
    ofOpcode (fieldsOf w).op.toNat (fieldsOf w).imm = some i ∧ (fieldsOf w).rsv = 0 ∧
      ((fieldsOf w).op = 5 ∨ (fieldsOf w).imm = 0) := by
  unfold decode
  split
  · simp_all
  · split
    · simp_all
    · split <;> simp_all [or_iff_not_imp_left]

/-- The opcode map has one opcode per command (R82). -/
theorem opcode_of_ofOpcode {op : Nat} {imm : Byte} {i : Instr} (h : ofOpcode op imm = some i) :
    op = (opcode i).toNat := by
  unfold ofOpcode at h
  split at h
  case h_10 => simp at h
  all_goals
    obtain rfl := Option.some.inj h
    rfl

/-- The operand of PUSH is its word's (R83). -/
theorem immOf_of_ofOpcode {imm : Byte} {i : Instr} (h : ofOpcode (opcode i).toNat imm = some i) :
    imm = immOf i ∨ opcode i ≠ 5 := by
  cases i with
  | push b => exact .inl (by simpa [ofOpcode, opcode, immOf] using h)
  | _ => exact .inr (by simp [opcode])

theorem ofOpcode_opcode (i : Instr) : ofOpcode (opcode i).toNat (immOf i) = some i := by
  cases i <;> rfl

/-- Only PUSH has an operand (R83). -/
theorem opcode_eq_or_immOf_eq (i : Instr) : opcode i = 5 ∨ immOf i = 0 := by
  cases i <;> simp [opcode, immOf]

/-- The fields of a word, put together again (R80). -/
theorem append_fieldsOf (w : Word) : (fieldsOf w).rsv ++ ((fieldsOf w).imm ++ (fieldsOf w).op) = w := by
  apply BitVec.eq_of_toNat_eq
  simp only [fieldsOf, toNat_append_add, BitVec.extractLsb'_toNat, Nat.shiftRight_eq_div_pow]
  omega

/-- The fields of a command's word (R80, R82). -/
theorem fieldsOf_encode (i : Instr) : fieldsOf (encode i) = ⟨opcode i, immOf i, 0⟩ := by
  have h : Laws.WordFields.Statement i := by
    cases i with
    | push imm => exact Laws.WordFields.push imm
    | _ => exact ⟨rfl, rfl, rfl⟩
  obtain ⟨hop, himm, hrsv⟩ := h
  simp only [fieldsOf, hop, himm, hrsv]

/-- The word of a command decodes to it (R81, R82). -/
theorem decode_encode (i : Instr) : decode (encode i) = .ok i := by
  rw [decode_eq_ok_iff, fieldsOf_encode]
  exact ⟨ofOpcode_opcode i, rfl, opcode_eq_or_immOf_eq i⟩

/-- A word that decodes is the word of its command (R81, R82). -/
theorem encode_of_decode {w : Word} {i : Instr} (h : decode w = .ok i) : encode i = w := by
  obtain ⟨hi, hrsv, himm⟩ := decode_eq_ok_iff.1 h
  have hop : (fieldsOf w).op = opcode i := BitVec.eq_of_toNat_eq (opcode_of_ofOpcode hi)
  rw [hop] at hi himm
  have himm : (fieldsOf w).imm = immOf i := by
    obtain h | h := immOf_of_ofOpcode hi
    · exact h
    · rw [himm.resolve_left h, (opcode_eq_or_immOf_eq i).resolve_left h]
  rw [← append_fieldsOf w, hrsv, himm, hop]
  rfl

end Sys2Proof.Machine
end

section
/-! PROOF. The host window (20_memory.md R61, R62): what a read returns at every offset, what a palette write stores, and
the CMD write as the command it decodes to. -/

namespace Sys2Proof.Machine

/-! ## One access -/

/-- A step whose next move is a read is that read, with the move done. -/
theorem step_read {s : State} {off : Offset} {w : Width} {rest : List Move}
    (h : s.agenda = .access (.read off w) :: rest) : step s = busRead off w (s.withAgenda rest) := by
  simp [step, nextMove, h, hostAccess]

/-- A step whose next move is a write is that write, with the move done. -/
theorem step_write {s : State} {off : Offset} {w : Width} {v : Word} {rest : List Move}
    (h : s.agenda = .access (.write off w v) :: rest) : step s = busWrite off w v (s.withAgenda rest) := by
  simp [step, nextMove, h, hostAccess]

/-- Every register is at a multiple of 4 (R33). -/
theorem regOffset_aligned (r : Reg) : r.offset.toNat % 4 = 0 := by
  cases r with
  | pal i => simp only [Reg.offset, Config.paletteBase, BitVec.toNat_ofNat]; omega
  | _ => rfl

@[simp] theorem readReg_withAgenda (s : State) (l : List Move) (r : Reg) : readReg (s.withAgenda l) r = readReg s r := by
  cases r <;> rfl

/-- A read of a register with a value returns it and changes nothing in the block (R61, R63). -/
theorem step_read_reg {s : State} {off : Offset} {rest : List Move} {r : Reg} {v : Word}
    (h : s.agenda = .access (.read off .bits32) :: rest) (ha : off.toNat % 4 = 0) (hr : regAt off = some r)
    (hv : readReg s r = some v) : step s = .next { s with agenda := rest, reads := s.reads ++ [v] } := by
  simp only [step_read h, busRead, onBus_aligned ha, hr, readReg_withAgenda, hv]
  rfl

/-- A read where the window has no register returns 0 (R62). -/
theorem step_read_unmapped {s : State} {off : Offset} {rest : List Move}
    (h : s.agenda = .access (.read off .bits32) :: rest) (ha : off.toNat % 4 = 0) (hr : regAt off = none) :
    step s = .next { s with agenda := rest, reads := s.reads ++ [0] } := by
  simp only [step_read h, busRead, onBus_aligned ha, hr]
  rfl

/-- A read of a register without a value faults (R40). -/
theorem step_read_noValue {s : State} {off : Offset} {rest : List Move} {r : Reg}
    (h : s.agenda = .access (.read off .bits32) :: rest) (ha : off.toNat % 4 = 0) (hr : regAt off = some r)
    (hv : readReg s r = none) : step s = .fault .unwrittenPalette := by
  simp [step_read h, busRead, onBus_aligned ha, hr, readReg_withAgenda, hv]

/-- A write of a register other than CMD stores its word (R61). -/
theorem step_write_reg {s : State} {r : Reg} {v : Word} {rest : List Move} (hb : s.busy = false) (hr : r ≠ .cmd)
    (h : s.agenda = .access (.write r.offset .bits32 v) :: rest) : step s = .next (writeReg (s.withAgenda rest) r v) := by
  simp only [step_write h, busWrite, onBus_aligned (regOffset_aligned r), regAt_offset, State.withAgenda_busy, hb]
  cases r with
  | cmd => exact absurd rfl hr
  | _ => rfl

/-! ## The offsets without a register, and those of the palette (R33) -/

theorem regAt_unmapped {off : Offset} (h : 0x038 ≤ off.toNat ∧ off.toNat < 0x400 ∨ 0x800 ≤ off.toNat) :
    regAt off = none := by
  have hout : ¬ (Config.paletteBase ≤ off.toNat ∧ off.toNat < Config.paletteEnd) := by
    simp only [Config.paletteBase, Config.paletteEnd]
    omega
  unfold regAt
  split
  case h_15 => rw [if_neg hout]
  all_goals omega

theorem regAt_palette {off : Offset} (hlo : 0x400 ≤ off.toNat) (hhi : off.toNat < 0x800) :
    ∃ i : Fin 256, regAt off = some (.pal i) ∧ i.val = (off.toNat - 0x400) / 4 := by
  have hin : Config.paletteBase ≤ off.toNat ∧ off.toNat < Config.paletteEnd := ⟨hlo, hhi⟩
  refine ⟨Fin.ofNat 256 ((off.toNat - 0x400) / 4), ?_, Nat.mod_eq_of_lt (by omega)⟩
  unfold regAt
  split
  case h_15 => rw [if_pos hin]
  all_goals omega

/-! ## The words of the read-only registers as sums of their fields -/

theorem statusWord_eq (s : State) : s.statusWord = BitVec.ofNat 32 (s.phase.code.toNat + 8 * s.busy.toNat
    + 16 * s.err.code.toNat + 256 * s.tmulti.toNat) := by
  apply BitVec.eq_of_toNat_eq
  have hp := s.phase.code.isLt
  have he := s.err.code.isLt
  have hb := s.busy.toNat_le
  have hm := s.tmulti.toNat_le
  simp only [State.statusWord, toNat_append_add, BitVec.toNat_ofBool, BitVec.ofNat_eq_ofNat, BitVec.toNat_ofNat]
  omega

theorem transWord_eq (s : State) : s.transWord = BitVec.ofNat 32 (s.tidx.toNat + 256 * s.tflag.toNat) := by
  apply BitVec.eq_of_toNat_eq
  have hi := s.tidx.isLt
  have hf := s.tflag.toNat_le
  simp only [State.transWord, toNat_append_add, BitVec.toNat_ofBool, BitVec.ofNat_eq_ofNat, BitVec.toNat_ofNat]
  omega

theorem infoWord_eq (s : State) : s.infoWord = BitVec.ofNat 32 (s.mcs.toNat + 16 * s.palK.toNat) := by
  apply BitVec.eq_of_toNat_eq
  have hm := s.mcs.isLt
  have hk := s.palK.isLt
  simp only [State.infoWord, toNat_append_add, BitVec.ofNat_eq_ofNat, BitVec.toNat_ofNat]
  omega

/-- A field alone in its word (R41, R44, R46). -/
theorem zero_append_eq {m n : Nat} (x : BitVec n) : (0 : BitVec m) ++ x = BitVec.ofNat (m + n) x.toNat := by
  apply BitVec.eq_of_toNat_eq
  have hx : x.toNat < 2 ^ (m + n) := Nat.lt_of_lt_of_le x.isLt (Nat.pow_le_pow_right (by omega) (by omega))
  simp [Nat.mod_eq_of_lt hx]

/-! ## What is read -/

/-- Settles O35, one register or range of offsets at a time. -/
theorem readsReturnRegisterTable : Obligations.ReadsReturnRegisterTable := by
  intro s off rest v ha h hv
  obtain ⟨rfl, rfl⟩ | ⟨rfl, rfl⟩ | ⟨rfl, rfl⟩ | ⟨rfl, rfl⟩ | ⟨rfl, rfl⟩ | ⟨rfl, rfl⟩ | ⟨rfl, rfl⟩ | ⟨rfl, rfl⟩ |
    ⟨rfl, rfl⟩ | ⟨rfl, rfl⟩ | ⟨rfl, rfl⟩ | ⟨rfl, rfl⟩ | ⟨rfl, rfl⟩ | ⟨rfl, rfl⟩ | ⟨hlo, hhi, rfl⟩ | ⟨hlo, rfl⟩ |
    ⟨hlo, hhi, hv⟩ := hv
  · exact step_read_reg (r := .cmd) h ha rfl rfl
  · exact step_read_reg (r := .status) h ha rfl (congrArg some (statusWord_eq s))
  · exact step_read_reg (r := .frameCount) h ha rfl rfl
  · exact step_read_reg (r := .delayCount) h ha rfl rfl
  · exact step_read_reg (r := .loopCount) h ha rfl rfl
  · exact step_read_reg (r := .palLen) h ha rfl rfl
  · exact step_read_reg (r := .frameMin) h ha rfl rfl
  · exact step_read_reg (r := .frameMax) h ha rfl rfl
  · exact step_read_reg (r := .delay) h ha rfl (congrArg some (zero_append_eq (m := 16) s.delay))
  · exact step_read_reg (r := .trans) h ha rfl (congrArg some (transWord_eq s))
  · exact step_read_reg (r := .info) h ha rfl (congrArg some (infoWord_eq s))
  · exact step_read_reg (r := .loopNorm) h ha rfl (congrArg some (zero_append_eq (m := 16) s.loopL))
  · exact step_read_reg (r := .framesDone) h ha rfl rfl
  · exact step_read_reg (r := .sbFill) h ha rfl (congrArg some (zero_append_eq (m := 24) s.sbCnt))
  · exact step_read_unmapped h ha (regAt_unmapped (.inl ⟨hlo, hhi⟩))
  · exact step_read_unmapped h ha (regAt_unmapped (.inr hlo))
  · obtain ⟨i, hr, hi⟩ := regAt_palette hlo hhi
    exact step_read_reg h ha hr (by rw [readReg, hi, hv])

/-- Settles O36: the palette's register at the offset has no value. -/
theorem readOfUnwrittenEntryFaults : Obligations.ReadOfUnwrittenEntryFaults := by
  intro s off rest ha hlo hhi h hv
  obtain ⟨i, hr, hi⟩ := regAt_palette hlo hhi
  exact step_read_noValue h ha hr (by rw [readReg, hi, hv])

/-- Settles O38 with the palette after `Memory.writeEntry`. -/
theorem paletteWriteStoresOneEntry : Obligations.PaletteWriteStoresOneEntry := by
  intro s i v rest hb h
  exact ⟨s.palette.writeEntry i v, step_write_reg (r := .pal i) hb (by simp) h, Memory.readEntry_writeEntry_self _ _ _,
    fun _ ha => Memory.readByte_writeEntry_outside ha, fun hwf => Memory.writeEntry_wf hwf _ _⟩

/-! ## The CMD write -/

/-- In ERROR every command but NOP and ABORT is ignored (R224). -/
theorem exec_ignored {i : Instr} {s : State} (hb : s.busy = false) (hp : s.phase = .error) (hn : i ≠ .nop)
    (ha : i ≠ .abort) : exec i s = .next s := by
  cases i <;> simp_all [exec, execStart, execHeader, execLoopext, execFrame, execPush, execFrameEnd, execTrailer, issue]

/-- A word that decodes is issued as its command: the checks before decoding are those the command makes (R200, R226). -/
theorem issueWord_eq_exec {w : Word} {i : Instr} (h : decode w = .ok i) (s : State) : issueWord w s = exec i s := by
  have hw : encode i = w := encode_of_decode h
  unfold issueWord
  split
  · rename_i hb
    exact (exec_busy i hb).symm
  · rename_i hb
    split
    · rename_i hp
      refine (exec_ignored (by simpa using hb) hp.1 ?_ ?_).symm <;> rintro rfl <;> simp [leavesIgnoring, ← hw] at hp
    · rw [h]

/-- A write to CMD issues its word (R34). -/
theorem busWrite_cmd {off : Offset} (ho : onBus off .bits32 = true) (hr : regAt off = some .cmd) (w : Word) (s : State) :
    busWrite off .bits32 w s = issueWord w s := by
  cases hb : s.busy <;> simp [busWrite, ho, hr, issueWord, hb]

/-- Settles O4: the CMD write issues its word, and the word withFetchWord places decodes to the command it encodes. -/
theorem cmdWriteRunsDecodedCommand : Obligations.CmdWriteRunsDecodedCommand := by
  have hcmd : ∀ (s : State) (w : Word) (i : Instr) (rest : List Move),
      s.agenda = .access (.write 0x000 .bits32 w) :: rest → decode w = .ok i → step s = exec i (s.withAgenda rest) := by
    intro s w i rest h hi
    rw [step_write h, busWrite_cmd rfl rfl, issueWord_eq_exec hi]
  refine ⟨hcmd, fun s i => hcmd _ _ i s.agenda ?_ (decode_encode i)⟩
  have hword : BitVec.ofNat 32 ((encode i).toNat % 2 ^ 32) = encode i := by
    rw [Nat.mod_eq_of_lt (encode i).isLt, BitVec.ofNat_toNat, BitVec.setWidth_eq]
  rw [State.withFetchWord, hword]
  rfl

end Sys2Proof.Machine
end

section
/-! PROOF. HEADER at the palette's entries (40_header.md R121). -/

namespace Sys2Proof.Machine

/-- HEADER's steps at a written entry: three bytes that the sink accepts, and the scan (R121, R124). -/
theorem runSteps_entry {m : Memory} {i : Nat} {e : Word} {rest : List CmdStep} {s : State} (he : m.readEntry i = some e)
    (hk : s.sink.accepts 3) : runSteps (entrySteps m i ++ rest) s =
      runSteps rest ((s.onward (s.out ++ colorTriplet e) (s.sink.after 3)).scanEntry i e) := by
  simp only [entrySteps, he, List.append_assoc]
  rw [runSteps_emits (bs := colorTriplet e) hk]
  rfl

/-- HEADER's steps at an entry never written since reset (R40, R121). -/
theorem runSteps_entry_unwritten {m : Memory} {i : Nat} (he : m.readEntry i = none) (rest : List CmdStep) (s : State) :
    runSteps (entrySteps m i ++ rest) s = .fault .unwrittenPalette := by
  simp [entrySteps, he, runSteps]

/-- After written entries whose bytes the sink accepts, HEADER comes to what follows them. -/
theorem runSteps_entries_written {m : Memory} {l : List Nat} {s : State} (hw : ∀ i ∈ l, (m.readEntry i).isSome)
    (hk : s.sink.accepts (3 * l.length)) :
    ∃ u, ∀ rest, runSteps (l.flatMap (entrySteps m) ++ rest) s = runSteps rest u := by
  induction l generalizing s with
  | nil => exact ⟨s, fun _ => rfl⟩
  | cons i l ih =>
    obtain ⟨e, he⟩ := Option.isSome_iff_exists.1 (hw i (by simp))
    have hk' : s.sink.accepts (3 + 3 * l.length) := hk.mono (by simp; omega)
    obtain ⟨u, hu⟩ := ih (s := (s.onward (s.out ++ colorTriplet e) (s.sink.after 3)).scanEntry i e)
      (fun j hj => hw j (by simp [hj])) hk'.after
    refine ⟨u, fun rest => ?_⟩
    rw [List.flatMap_cons, List.append_assoc, runSteps_entry he (hk'.mono (by omega)), hu]

/-- The entries of a table of more than n come as those before n, n, and the rest. -/
theorem flatMap_range_split {α : Type} {n k : Nat} (h : n < k) (f : Nat → List α) :
    ∃ rest, (List.range k).flatMap f = (List.range n).flatMap f ++ (f n ++ rest) := by
  obtain ⟨d, rfl⟩ := Nat.exists_eq_add_of_lt h
  refine ⟨((List.range d).map (n + 1 + ·)).flatMap f, ?_⟩
  rw [Nat.add_right_comm, List.range_add, List.range_succ]
  simp

/-- Settles O18: past the 13 bytes and the n entries before it, HEADER comes to the unwritten one. -/
theorem headerFaultsOnUnwrittenEntry : Obligations.HeaderFaultsOnUnwrittenEntry := by
  intro s n hb hp hn hw hnone hk
  have hk : s.sink.accepts (s.headerBytes.length + 3 * (List.range n).length) := by rwa [List.length_range]
  obtain ⟨tail, htail⟩ := flatMap_range_split hn (entrySteps s.palette)
  obtain ⟨u, hu⟩ := runSteps_entries_written (m := s.palette) (l := List.range n)
    (s := s.beginCommand.onward (s.out ++ s.headerBytes) (s.sink.after s.headerBytes.length))
    (fun i hi => hw i (List.mem_range.1 hi)) hk.after
  calc exec .header s = runSteps (headerSteps s) s.beginCommand := issue_legal hb (by simp [hp]) (by simp [hp])
    _ = runSteps (entrySteps s.palette n ++ (tail ++ [.setPhase s.phaseAfterHeader])) u := by
      rw [headerSteps, runSteps_emits (s := s.beginCommand) (hk.mono (by omega)), State.paletteLength, htail,
        List.append_assoc, List.append_assoc]
      exact hu _
    _ = .fault .unwrittenPalette := runSteps_entry_unwritten hnone _ u

end Sys2Proof.Machine
end

section
/-! PROOF. The invariant between two moves (10_state.md, 44_orchestrator.md R201): it holds at reset, and every step keeps
it. A command that starts is a turn of the block that has the command's steps waiting (`blockTurn_suspend`), so that one
lemma, `blockTurn_keeps_inv`, covers the commands that start and those that go on after a stall. -/

namespace Sys2Proof.Machine

/-! ## The invariant while a command runs -/

/-- The clauses of the invariant that do not speak of BUSY and the waiting steps: what holds also while a command runs. -/
structure State.MidInv (s : State) : Prop where
  canonical : s.palette.wf
  whole : s.palette.wholeEntries
  errPhase : s.err = .noError ↔ s.phase ≠ .error
  lengths : s.phase.streaming → 1 ≤ s.palK.toNat ∧ s.palK.toNat ≤ 8 ∧ s.mcs.toNat = clog2 (2 ^ s.palK.toNat + 2)
  frames : s.phase.streaming → 0 < s.fcL.toNat
  counted : s.framesDone.toNat ≤ s.fcL.toNat
  notBegun : s.phase = .hdr ∨ s.phase = .loop → s.framesDone = 0
  several : s.phase = .loop → 1 < s.fcL.toNat
  due : s.phase = .frm ∨ s.phase = .data → s.framesDone.toNat < s.fcL.toNat
  last : s.phase = .trl ∨ s.phase = .done → s.framesDone = s.fcL
  fill : s.phase ≠ .data → s.phase ≠ .error → s.sbCnt.toNat ≤ 254
  index : s.tflag = false → s.tidx = 0
  multi : s.tmulti = true → s.tflag = true

theorem State.Inv.mid {s : State} (h : s.Inv) : s.MidInv :=
  { h with fill := fun hd => h.fill (.inr hd) }

/-- Nothing waits while BUSY = 0. -/
theorem State.Inv.pending_nil {s : State} (h : s.Inv) (hb : s.busy = false) : s.pending = [] := by
  simpa [hb] using h.busyPending

theorem State.Inv.withAgenda {s : State} (h : s.Inv) (l : List Move) : (s.withAgenda l).Inv := { h with }

theorem State.Inv.returnWord {s : State} (h : s.Inv) (v : Word) : (s.returnWord v).Inv := { h with }

/-! ## The steps that may wait, phase by phase -/

theorem pendingFits_hdr {s : State} (hp : s.phase = .hdr) : s.pendingFits ↔
    ∃ table, s.pending = table ++ [.setPhase s.phaseAfterHeader] ∧ ∀ c ∈ table, c.ofTable := by
  simp only [State.pendingFits, hp, State.phaseAfterHeader]

theorem pendingFits_loop {s : State} (hp : s.phase = .loop) : s.pendingFits ↔
    ∃ bs, s.pending = emits bs ++ [.setPhase .frm] := by
  simp only [State.pendingFits, hp]

theorem pendingFits_frm {s : State} (hp : s.phase = .frm) : s.pendingFits ↔
    ∃ bs, s.pending = emits bs ++ [.clearFill, .setPhase .data] := by
  simp only [State.pendingFits, hp]

theorem pendingFits_data {s : State} (hp : s.phase = .data) : s.pendingFits ↔
    (∃ bs, s.pending = emits bs ++ [.clearFill]) ∨
    (∃ bs, s.pending = emits bs ++ [.clearFill, .emit blockTerminator, .endFrame]) ∨
    (s.pending = [.emit blockTerminator, .endFrame] ∧ s.sbCnt = 0) := by
  simp only [State.pendingFits, hp]

theorem pendingFits_trl {s : State} (hp : s.phase = .trl) : s.pendingFits ↔ s.pending = trailerSteps := by
  simp only [State.pendingFits, hp, trailerSteps]

/-- In IDLE, DONE and ERROR no command is cut (R66). -/
theorem pendingFits_quiet {s : State} (hp : s.phase = .idle ∨ s.phase = .done ∨ s.phase = .error) :
    s.pendingFits ↔ s.pending = [] := by
  obtain hp | hp | hp := hp <;> simp only [State.pendingFits, hp]

/-! ## The ways a move of the block ends -/

/-- A command cut by a stall, with steps its phase admits (R66). -/
theorem State.MidInv.suspend {s : State} (h : s.MidInv) {l : List CmdStep} (hl : l ≠ [])
    (hf : (s.suspend l).pendingFits) : (s.suspend l).Inv :=
  { h with
    busyPending := by simpa using hl
    pendingFits := fun _ => hf
    fresh := by simp
    fill := by simpa using h.fill }

/-- A command that has raised an error (R222). -/
theorem State.MidInv.enterError {s : State} (h : s.MidInv) (hp : s.pending = []) {c : ErrKind} (hc : c ≠ .noError) :
    (s.enterError c).Inv :=
  { h with
    errPhase := by simp [hc]
    busyPending := by simp [hp]
    pendingFits := by simp
    lengths := by simp [Phase.streaming]
    frames := by simp [Phase.streaming]
    notBegun := by simp
    fresh := by simp
    several := by simp
    due := by simp
    last := by simp
    fill := by simp }

/-- A command that is done, in a phase other than HDR; in DATA it leaves at most 254 bytes held. -/
theorem State.MidInv.endCommand {s : State} (h : s.MidInv) (hp : s.pending = []) (hh : s.phase ≠ .hdr)
    (hd : s.phase = .data → s.sbCnt.toNat ≤ 254) : s.endCommand.Inv :=
  { h with
    busyPending := by simp [hp]
    pendingFits := by simp
    fresh := by simp [hh]
    fill := fun _ he => if hph : s.phase = .data then hd hph else h.fill hph he }

/-! ## What the steps of a command keep -/

theorem State.MidInv.onward {s : State} (h : s.MidInv) (o : List Byte) (k : Sink) : (s.onward o k).MidInv := { h with }

theorem State.MidInv.takeUp {s : State} (h : s.MidInv) : s.takeUp.MidInv := { h with }

theorem State.MidInv.clearFill {s : State} (h : s.MidInv) : s.clearFill.MidInv := { h with fill := by simp }

theorem State.MidInv.bufferByte {s : State} (h : s.MidInv) (hp : s.phase = .data) (b : Byte) : (s.bufferByte b).MidInv :=
  { h with fill := by simp [hp] }

/-- The steps of HEADER's table keep the transparency flags consistent (R29, R124). -/
theorem State.MidInv.tableChange {s u : State} (h : s.MidInv) (hc : TableChange s u) : u.MidInv := by
  have index := hc.index h.index
  have multi := hc.multi h.multi
  obtain ⟨_, _, _, _, _, rfl⟩ := hc.only
  exact { h with index := index, multi := multi }

/-- A later phase p of the same stream, with n frames done, when the clauses of p hold. -/
theorem State.MidInv.advance {s : State} (h : s.MidInv) {p : Phase} {n : Word} (hs : s.phase.streaming)
    (hp : p.streaming) (hfill : s.sbCnt.toNat ≤ 254) (hn : n.toNat ≤ s.fcL.toNat) (hhdr : p ≠ .hdr)
    (hloop : p = .loop → n = 0 ∧ 1 < s.fcL.toNat) (hdue : p = .frm ∨ p = .data → n.toNat < s.fcL.toNat)
    (hlast : p = .trl ∨ p = .done → n = s.fcL) : State.MidInv { s with framesDone := n, phase := p } :=
  { h with
    errPhase := by
      have hne : ∀ q : Phase, q.streaming → q ≠ .error := by rintro q hq rfl; simp [Phase.streaming] at hq
      simp [h.errPhase.2 (hne _ hs), hne _ hp]
    lengths := fun _ => h.lengths hs
    frames := fun _ => h.frames hs
    counted := hn
    notBegun := by
      rintro (hq | hq)
      · exact absurd hq hhdr
      · exact (hloop hq).1
    several := fun hq => (hloop hq).2
    due := hdue
    last := hlast
    fill := fun _ _ => hfill }

theorem State.phaseAfterHeader_eq (s : State) : s.phaseAfterHeader = .loop ∨ s.phaseAfterHeader = .frm := by
  unfold State.phaseAfterHeader
  split <;> simp

/-- HEADER ends in LOOP with several frames, else in FRM (R125). -/
theorem State.MidInv.afterHeader {s : State} (h : s.MidInv) (hp : s.phase = .hdr) :
    (s.setPhase s.phaseAfterHeader).MidInv := by
  have hs : s.phase.streaming := by simp [hp, Phase.streaming]
  have hzero : s.framesDone = 0 := h.notBegun (.inl hp)
  have hpos : 0 < s.fcL.toNat := h.frames hs
  have hfill : s.sbCnt.toNat ≤ 254 := h.fill (by simp [hp]) (by simp [hp])
  unfold State.phaseAfterHeader
  split
  · rename_i hmany
    exact h.advance hs rfl hfill h.counted (by simp) (fun _ => ⟨hzero, hmany⟩) (by simp) (by simp)
  · exact h.advance hs rfl hfill h.counted (by simp) (by simp) (fun _ => by simpa [hzero] using hpos) (by simp)

/-- LOOPEXT ends in FRM (R140). -/
theorem State.MidInv.afterLoopext {s : State} (h : s.MidInv) (hp : s.phase = .loop) : (s.setPhase .frm).MidInv := by
  have hs : s.phase.streaming := by simp [hp, Phase.streaming]
  have hdue : s.framesDone.toNat < s.fcL.toNat := by simpa [h.notBegun (.inr hp)] using h.frames hs
  exact h.advance hs rfl (h.fill (by simp [hp]) (by simp [hp])) h.counted (by simp) (by simp) (fun _ => hdue) (by simp)

/-- FRAME ends in DATA with an empty chunker (R150). -/
theorem State.MidInv.afterFrame {s : State} (h : s.MidInv) (hp : s.phase = .frm) :
    (s.clearFill.setPhase .data).MidInv := by
  have hs : s.clearFill.phase.streaming := by simp [hp, Phase.streaming]
  exact h.clearFill.advance hs rfl (by simp) h.counted (by simp) (by simp) (fun _ => h.due (.inl hp)) (by simp)

/-- FRAME_END ends in FRM while frames remain and in TRL after the last, with the frame counted (R156, R157). -/
theorem State.MidInv.countFrame {s : State} (h : s.MidInv) (hp : s.phase = .data) (hfill : s.sbCnt.toNat ≤ 254) :
    s.countFrame.MidInv := by
  have hs : s.phase.streaming := by simp [hp, Phase.streaming]
  have hd : s.framesDone.toNat < s.fcL.toNat := h.due (.inr hp)
  have hcount : (s.framesDone + 1).toNat = s.framesDone.toNat + 1 := by bv_omega
  unfold State.countFrame
  split
  · exact h.advance hs rfl hfill (by omega) (by simp) (by simp) (fun _ => by bv_omega) (by simp)
  · exact h.advance hs rfl hfill (by omega) (by simp) (by simp) (by simp) (fun _ => by bv_omega)

/-- TRAILER ends in DONE (R192). -/
theorem State.MidInv.afterTrailer {s : State} (h : s.MidInv) (hp : s.phase = .trl) : (s.setPhase .done).MidInv := by
  have hs : s.phase.streaming := by simp [hp, Phase.streaming]
  exact h.advance hs rfl (h.fill (by simp [hp]) (by simp [hp])) h.counted (by simp) (by simp) (by simp)
    (fun _ => h.last (.inl hp))

/-! ## A turn of the block -/

/-- A record being emitted, with what the phase admits after it: cut, failed, or accepted whole. -/
theorem runSteps_emits_keeps_inv {s t : State} {bs : List Byte} {rest : List CmdStep} (h : s.MidInv)
    (hp : s.pending = []) (hr : runSteps (emits bs ++ rest) s = .next t)
    (hfit : ∀ b tl, (s.suspend (emits (b :: tl) ++ rest)).pendingFits)
    (hdone : ∀ o k, runSteps rest (s.onward o k) = .next t → t.Inv) : t.Inv := by
  obtain ⟨o, k, ⟨b, tl, rfl⟩ | rfl | hr⟩ := emits_cases hr
  · exact (h.onward o k).suspend (by simp) (hfit b tl)
  · exact (h.onward o k).enterError hp (by simp)
  · exact hdone o k hr

/-- The rest of HEADER. -/
theorem runSteps_header_keeps_inv {s t : State} {table : List CmdStep} (h : s.MidInv) (hp : s.pending = [])
    (hph : s.phase = .hdr) (hc : ∀ c ∈ table, c.ofTable)
    (hr : runSteps (table ++ [.setPhase s.phaseAfterHeader]) s = .next t) : t.Inv := by
  obtain ⟨u, hu, hcases⟩ := table_cases hc hr
  have hmid : u.MidInv := h.tableChange hu
  obtain ⟨hph, hp, hafter⟩ : u.phase = .hdr ∧ u.pending = [] ∧ s.phaseAfterHeader = u.phaseAfterHeader := by
    obtain ⟨_, _, _, _, _, rfl⟩ := hu.only
    exact ⟨hph, hp, rfl⟩
  rw [hafter] at hcases
  obtain ⟨b, tl, hofTable, rfl⟩ | rfl | hr := hcases
  · exact hmid.suspend (by simp) (Iff.mpr (pendingFits_hdr hph)
      ⟨.emit b :: tl, rfl, by simpa [CmdStep.ofTable] using hofTable⟩)
  · exact hmid.enterError hp (by simp)
  · obtain rfl := Host.Outcome.next.inj hr
    have hnext := u.phaseAfterHeader_eq
    exact (hmid.afterHeader hph).endCommand hp (by rcases hnext with hq | hq <;> simp [hq])
      (by rcases hnext with hq | hq <;> simp [hq])

/-- The rest of a FRAME_END with an empty chunker: its terminator, and the frame is counted (R156). -/
theorem runSteps_terminator_keeps_inv {s t : State} (h : s.MidInv) (hp : s.pending = []) (hph : s.phase = .data)
    (hzero : s.sbCnt = 0) (hr : runSteps [.emit blockTerminator, .endFrame] s = .next t) : t.Inv := by
  obtain ⟨o, k, rfl | rfl | rfl⟩ := terminator_cases hr
  · exact (h.onward o k).suspend (by simp) (Iff.mpr (pendingFits_data hph) (.inr (.inr ⟨rfl, hzero⟩)))
  · exact (h.onward o k).enterError hp (by simp)
  · have hempty : (s.onward o k).sbCnt.toNat ≤ 254 := by simp [State.onward, hzero]
    refine ((h.onward o k).countFrame hph hempty).endCommand hp ?_ (fun _ => hempty)
    rw [State.countFrame_phase]
    split <;> simp

/-- The steps that wait in a state with the invariant are run with it. -/
theorem runSteps_pending_keeps_inv {s t : State} (h : s.Inv) (hb : s.busy = true)
    (hr : runSteps s.pending s.takeUp = .next t) : t.Inv := by
  have hmid : s.takeUp.MidInv := h.mid.takeUp
  have hwaits : s.pending ≠ [] := h.busyPending.1 hb
  have hfit : s.pendingFits := h.pendingFits hb
  cases hph : s.phase with
  | idle => exact absurd ((pendingFits_quiet (by simp [hph])).1 hfit) hwaits
  | done => exact absurd ((pendingFits_quiet (by simp [hph])).1 hfit) hwaits
  | error => exact absurd ((pendingFits_quiet (by simp [hph])).1 hfit) hwaits
  | hdr =>
    obtain ⟨table, hpend, hc⟩ := (pendingFits_hdr hph).1 hfit
    rw [hpend] at hr
    exact runSteps_header_keeps_inv hmid rfl hph hc hr
  | loop =>
    obtain ⟨bs, hpend⟩ := (pendingFits_loop hph).1 hfit
    rw [hpend] at hr
    refine runSteps_emits_keeps_inv hmid rfl hr (fun b tl => Iff.mpr (pendingFits_loop hph) ⟨b :: tl, rfl⟩)
      (fun o k hd => ?_)
    obtain rfl := Host.Outcome.next.inj hd
    exact ((hmid.onward o k).afterLoopext hph).endCommand rfl (by simp) (by simp)
  | frm =>
    obtain ⟨bs, hpend⟩ := (pendingFits_frm hph).1 hfit
    rw [hpend] at hr
    refine runSteps_emits_keeps_inv hmid rfl hr (fun b tl => Iff.mpr (pendingFits_frm hph) ⟨b :: tl, rfl⟩)
      (fun o k hd => ?_)
    obtain rfl := Host.Outcome.next.inj hd
    exact ((hmid.onward o k).afterFrame hph).endCommand rfl (by simp) (by simp)
  | data =>
    obtain ⟨bs, hpend⟩ | ⟨bs, hpend⟩ | ⟨hpend, hzero⟩ := (pendingFits_data hph).1 hfit <;> rw [hpend] at hr
    · refine runSteps_emits_keeps_inv hmid rfl hr (fun b tl => Iff.mpr (pendingFits_data hph) (.inl ⟨b :: tl, rfl⟩))
        (fun o k hd => ?_)
      obtain rfl := Host.Outcome.next.inj hd
      exact (hmid.onward o k).clearFill.endCommand rfl (by simp [State.onward, hph]) (by simp)
    · exact runSteps_emits_keeps_inv hmid rfl hr (fun b tl => Iff.mpr (pendingFits_data hph) (.inr (.inl ⟨b :: tl, rfl⟩)))
        (fun o k hd => runSteps_terminator_keeps_inv (hmid.onward o k).clearFill rfl hph rfl hd)
    · exact runSteps_terminator_keeps_inv hmid rfl hph hzero hr
  | trl =>
    have hbegun : s.takeUp = s.takeUp.beginCommand := by simp [State.takeUp, State.beginCommand, hb]
    rw [(pendingFits_trl hph).1 hfit, hbegun] at hr
    obtain ⟨o, k, rfl | rfl | rfl⟩ := trailer_cases hr
    · exact (hmid.onward o k).suspend (by simp) (Iff.mpr (pendingFits_trl hph) rfl)
    · exact (hmid.onward o k).enterError rfl (by simp)
    · exact ((hmid.onward o k).afterTrailer hph).endCommand rfl (by simp) (by simp)

/-- A turn of the block keeps the invariant. -/
theorem blockTurn_keeps_inv {s t : State} (h : s.Inv) (hr : blockTurn s = .next t) : t.Inv := by
  obtain ⟨hb, hr⟩ | ⟨-, rfl⟩ := blockTurn_cases hr
  · exact runSteps_pending_keeps_inv h hb hr
  · exact h

/-! ## A command that starts -/

/-- A command that starts is a turn of the block that has the command's steps waiting. -/
theorem blockTurn_suspend {s : State} (hp : s.pending = []) (l : List CmdStep) :
    blockTurn (s.suspend l) = runSteps l s.beginCommand := by
  have hbegin : (s.suspend l).takeUp = s.beginCommand := by
    cases s
    simp_all [State.suspend, State.takeUp, State.beginCommand]
  simp [blockTurn, hbegin]

/-- So it keeps the invariant when its steps are those its phase admits. -/
theorem runSteps_keeps_inv {s t : State} {l : List CmdStep} (h : s.MidInv) (hp : s.pending = []) (hl : l ≠ [])
    (hf : (s.suspend l).pendingFits) (hr : runSteps l s.beginCommand = .next t) : t.Inv :=
  blockTurn_keeps_inv (h.suspend hl hf) (by rwa [blockTurn_suspend hp])

/-- PUSH: the byte is held, or fills the block that then leaves (R170, R171). -/
theorem push_keeps_inv {s t : State} {b : Byte} (h : s.Inv) (hb : s.busy = false) (hph : s.phase = .data)
    (hr : runSteps (pushSteps (s.bufferByte b)) (s.beginCommand.bufferByte b) = .next t) : t.Inv := by
  have hmid : (s.bufferByte b).MidInv := h.mid.bufferByte hph b
  have hp : (s.bufferByte b).pending = [] := h.pending_nil hb
  have hle : s.sbCnt.toNat ≤ 254 := h.fill (.inl hb) (by simp [hph])
  unfold pushSteps at hr
  split at hr
  · rw [blockSteps_eq] at hr
    exact runSteps_keeps_inv hmid hp (by simp) (Iff.mpr (pendingFits_data hph) (.inl ⟨_, rfl⟩)) hr
  · rename_i hne
    obtain rfl := Host.Outcome.next.inj hr
    refine hmid.endCommand hp (by simp [hph]) (fun _ => ?_)
    rw [State.bufferByte_sbCnt] at hne ⊢
    bv_omega

/-- FRAME_END: a held block and the terminator, or the terminator alone (R156, R172). -/
theorem frameEnd_keeps_inv {s t : State} (h : s.Inv) (hb : s.busy = false) (hph : s.phase = .data)
    (hr : runSteps (frameEndSteps s) s.beginCommand = .next t) : t.Inv := by
  refine runSteps_keeps_inv h.mid (h.pending_nil hb) (by simp [frameEndSteps]) (Iff.mpr (pendingFits_data hph) ?_) hr
  rw [State.suspend_pending, State.suspend_sbCnt, frameEndSteps_eq]
  by_cases hzero : s.sbCnt = 0
  · simp [hzero]
  · simp only [hzero, if_false]
    exact .inr (.inl ⟨_, rfl⟩)

/-! ## START -/

/-- The palette lengths START admits have PAL_K from 1 to 8 and the MCS that belongs to it (R27, R28, R38). -/
theorem latched_lengths {n : Word} (hn : legalPaletteLength n = true) : 1 ≤ (latchedPalK n).toNat ∧
    (latchedPalK n).toNat ≤ 8 ∧ (latchedMcs n).toNat = clog2 (2 ^ (latchedPalK n).toNat + 2) := by
  simp only [legalPaletteLength, Config.paletteLengths, List.contains_iff_mem, List.mem_cons, List.not_mem_nil,
    or_false] at hn
  obtain rfl | rfl | rfl | rfl | rfl | rfl | rfl | rfl := hn <;> decide

/-- START's checks pass only with a frame and a palette length it admits (R190). -/
theorem startCheck_none {s : State} (h : startCheck s = none) :
    s.frameCount = s.delayCount ∧ s.frameCount ≠ 0 ∧ legalPaletteLength s.palLen = true := by
  unfold startCheck at h
  split at h
  · simp at h
  · split at h
    · simp at h
    · split at h <;> simp_all

/-- A stream that START opens (R190). -/
theorem State.Inv.openStream {s : State} (h : s.Inv) (hb : s.busy = false) (hne : s.phase ≠ .error)
    (hc : startCheck s = none) : s.openStream.Inv := by
  obtain ⟨-, hcount, hlen⟩ := startCheck_none hc
  exact { h with
    errPhase := by simp [h.errPhase.2 hne]
    pendingFits := by simp [hb]
    lengths := fun _ => latched_lengths hlen
    frames := fun _ => by simp only [State.openStream_fcL]; bv_omega
    counted := by simp
    notBegun := by simp
    fresh := by simp
    several := by simp
    due := by simp
    last := by simp
    fill := by simp
    index := by simp
    multi := by simp }

/-- The block as ABORT leaves it (R195). -/
theorem State.Inv.abandon {s : State} (h : s.Inv) (hb : s.busy = false) : s.abandon.Inv :=
  { h with
    errPhase := by simp
    pendingFits := by simp [hb]
    lengths := by simp [Phase.streaming]
    frames := by simp [Phase.streaming]
    notBegun := by simp
    fresh := by simp
    several := by simp
    due := by simp
    last := by simp
    fill := by simp
    multi := by simp }

/-! ## Commands and host writes -/

/-- Every command keeps the invariant. -/
theorem exec_keeps_inv {i : Instr} {s t : State} (h : s.Inv) (hr : exec i s = .next t) : t.Inv := by
  obtain ⟨hb, hcases⟩ := exec_cases hr
  have hp : s.pending = [] := h.pending_nil hb
  obtain ⟨-, rfl⟩ | ⟨-, -, -, rfl⟩ | ⟨-, -, rfl⟩ | ⟨-, rfl⟩ | ⟨-, hph, ⟨c, hc, rfl⟩ | ⟨hc, rfl⟩⟩ | ⟨-, hph, hr⟩ |
    ⟨-, hph, hr⟩ | ⟨-, hph, hr⟩ | ⟨b, -, hph, hr⟩ | ⟨-, hph, hr⟩ | ⟨-, hph, hr⟩ := hcases
  · exact h
  · exact h
  · exact h.mid.enterError hp (by simp)
  · exact h.abandon hb
  · refine h.mid.enterError hp ?_
    obtain rfl | rfl | rfl := startCheck_ne hc <;> simp
  · refine h.openStream hb ?_ hc
    obtain hph | hph := hph <;> simp [hph]
  · obtain ⟨table, hsteps, hofTable⟩ := headerSteps_form s
    exact runSteps_keeps_inv h.mid hp (by simp) (Iff.mpr (pendingFits_hdr hph) ⟨table, hsteps, hofTable⟩) hr
  · exact runSteps_keeps_inv h.mid hp (by simp) (Iff.mpr (pendingFits_loop hph) ⟨_, rfl⟩) hr
  · exact runSteps_keeps_inv h.mid hp (by simp) (Iff.mpr (pendingFits_frm hph) ⟨_, rfl⟩) hr
  · exact push_keeps_inv h hb hph hr
  · exact frameEnd_keeps_inv h hb hph hr
  · exact runSteps_keeps_inv h.mid hp (by simp) (Iff.mpr (pendingFits_trl hph) rfl) hr

/-- A stored register keeps the invariant: it speaks only of the palette among them, and a write stores a whole entry. -/
theorem writeReg_keeps_inv {s : State} (h : s.Inv) (r : Reg) (v : Word) : (writeReg s r v).Inv := by
  cases r with
  | pal i =>
    exact { h with
      canonical := Memory.writeEntry_wf h.canonical i v
      whole := Memory.wholeEntries_writeEntry h.whole i v }
  | _ => exact { h with }

theorem issueWord_keeps_inv {w : Word} {s t : State} (h : s.Inv) (hr : issueWord w s = .next t) : t.Inv := by
  obtain ⟨hb, ⟨-, -, rfl⟩ | ⟨-, -, rfl⟩ | ⟨i, -, hr⟩⟩ := issueWord_cases hr
  · exact h
  · exact h.mid.enterError (h.pending_nil hb) (by simp)
  · exact exec_keeps_inv h hr

/-- A host write keeps the invariant: it stores a register's value or issues a word (R61). -/
theorem busWrite_keeps_inv {off : Offset} {w : Width} {v : Word} {s t : State} (h : s.Inv)
    (hr : busWrite off w v s = .next t) : t.Inv := by
  obtain ⟨-, -, ⟨-, rfl⟩ | ⟨-, hr⟩ | ⟨r, -, -, rfl⟩⟩ := busWrite_cases hr
  · exact h
  · exact issueWord_keeps_inv h hr
  · exact writeReg_keeps_inv h r v

theorem waitPoll_keeps_inv {rest : List Move} {s t : State} (h : s.Inv) (hr : waitPoll rest s = .next t) : t.Inv := by
  unfold waitPoll at hr
  split at hr
  · exact blockTurn_keeps_inv (h.returnWord _) hr
  · obtain rfl := Host.Outcome.next.inj hr
    exact (h.returnWord _).withAgenda _

/-! ## Reset -/

/-- Settles O46: no byte of the palette is listed, and the rest is the reset state's fields. -/
theorem resetStateIsIdleAndZero : Obligations.ResetStateIsIdleAndZero := by
  have hpalette : ∀ i, State.reset.palette.readEntry i = none := fun _ => rfl
  exact ⟨rfl, rfl, rfl, rfl, rfl, rfl, rfl, rfl, rfl, rfl, rfl, rfl, rfl, rfl, rfl, rfl, rfl, rfl, rfl, rfl, hpalette,
    rfl⟩

/-- Settles O48, clause by clause; the reset state is in IDLE with nothing waiting. -/
theorem resetMeetsInvariant : Obligations.ResetMeetsInvariant where
  canonical := List.Pairwise.nil
  whole := Memory.wholeEntries_nil
  errPhase := by decide
  busyPending := by decide
  pendingFits := by simp [State.reset]
  lengths := by decide
  frames := by decide
  counted := by decide
  notBegun := by decide
  fresh := by decide
  several := by decide
  due := by decide
  last := by decide
  fill := by decide
  index := by decide
  multi := by decide

/-! ## The step -/

/-- Settles O49, by the next move: reads and the host's looks change only the host's side, a write stores or issues, and
the block's turns and commands are `blockTurn_keeps_inv` and `exec_keeps_inv`. -/
theorem stepKeepsInvariant : Obligations.StepKeepsInvariant := by
  intro s t h hr
  obtain ⟨-, hr⟩ | ⟨off, w, rest, -, hr⟩ | ⟨off, w, v, rest, -, hr⟩ | ⟨rest, -, hr⟩ | ⟨rest, -, hr⟩ | ⟨rest, -, rfl⟩ |
    ⟨rest, -, rfl⟩ | ⟨c, rest, -, rfl⟩ | ⟨rest, -, rfl⟩ := step_cases hr
  · exact blockTurn_keeps_inv h hr
  · obtain ⟨-, v, rfl⟩ := busRead_cases hr
    exact (h.withAgenda rest).returnWord v
  · exact busWrite_keeps_inv (h.withAgenda rest) hr
  · exact waitPoll_keeps_inv h hr
  · exact blockTurn_keeps_inv (h.withAgenda rest) hr
  · have hreset : State.reset.Inv := resetMeetsInvariant
    exact { hreset with }
  · exact (h.returnWord _).withAgenda _
  · exact (h.returnWord _).withAgenda _
  · exact h.withAgenda rest

end Sys2Proof.Machine
end

section
/-! PROOF. What a command, a turn of the block and a step can change (20_memory.md R63 to R66, R69): a command that goes past
its checks is a run of steps, which keeps the host's side, appends to the output, and goes on after a stall as if there had
been none. -/

namespace Sys2Proof.Machine

/-! ## A command as a run of steps -/

/-- The state in which only the sink's listed answers are others. -/
def State.withScript (s : State) (script : List SinkAnswer) : State := { s with sink := { s.sink with script := script } }

/-- The state in which a command's steps begin: BUSY is 1, and a PUSH has buffered its byte (R170, R200). -/
def State.running (s : State) (buf : Vector Byte 255) (cnt : BitVec 8) : State :=
  { s with busy := true, sbBuf := buf, sbCnt := cnt }

/-- The host's side of a state: the host-written registers, the palette, the words read and the moves to come. -/
def State.hostSide (s : State) : Word × Word × Word × Word × Word × Word × Half × Memory × List Word × List Move :=
  (s.frameCount, s.delayCount, s.loopCount, s.palLen, s.frameMin, s.frameMax, s.delay, s.palette, s.reads, s.agenda)

/-- From s to t the host's side stays and the output only grows. -/
structure KeepsHostSide (s t : State) : Prop where
  hostSide : t.hostSide = s.hostSide
  out : ∃ bs, t.out = s.out ++ bs

/-- A state with the same host's side and the same output. -/
theorem KeepsHostSide.of_eq {s t : State} (h : t.hostSide = s.hostSide) (ho : t.out = s.out) : KeepsHostSide s t :=
  ⟨h, [], by simp [ho]⟩

/-- A command whose phase admits it runs its steps, which the sink's answers do not choose (R13, R200). -/
theorem issue_runs {p : Phase} {rule : State → List CmdStep} {init : State → State} {s : State}
    {buf : Vector Byte 255} {cnt : BitVec 8} (hb : s.busy = false) (hp : s.phase = p) (he : p ≠ .error)
    (hrule : ∀ script, rule (init (s.withScript script).beginCommand) = rule (init s))
    (hinit : ∀ script, init (s.withScript script).beginCommand = (s.withScript script).running buf cnt)
    (script : List SinkAnswer) : issue [p] (fun s => runSteps (rule (init s)) (init s)) (s.withScript script) =
      runSteps (rule (init s)) ((s.withScript script).running buf cnt) := by
  have hphase : (s.withScript script).phase = p := hp
  rw [issue_legal (s := s.withScript script) hb (by simp [hphase]) (by simpa [hphase] using he), hrule, hinit]

/-- A command that answers a next state either emits nothing and ends with BUSY = 0, or is a run of steps, the same
for all answers of the sink (R13, R200). -/
theorem exec_runs {i : Instr} {s t : State} (h : exec i s = .next t) :
    (t.busy = false ∧ t.hostSide = s.hostSide ∧ t.out = s.out) ∨
    ∃ steps buf cnt, ∀ script, exec i (s.withScript script) = runSteps steps ((s.withScript script).running buf cnt) := by
  obtain ⟨hb, hcases⟩ := exec_cases h
  obtain ⟨-, rfl⟩ | ⟨-, -, -, rfl⟩ | ⟨-, -, rfl⟩ | ⟨-, rfl⟩ | ⟨-, -, ⟨c, -, rfl⟩ | ⟨-, rfl⟩⟩ | ⟨rfl, hp, -⟩ |
    ⟨rfl, hp, -⟩ | ⟨rfl, hp, -⟩ | ⟨b, rfl, hp, -⟩ | ⟨rfl, hp, -⟩ | ⟨rfl, hp, -⟩ := hcases
  · exact .inl ⟨hb, rfl, rfl⟩
  · exact .inl ⟨hb, rfl, rfl⟩
  · exact .inl ⟨rfl, rfl, rfl⟩
  · exact .inl ⟨hb, rfl, rfl⟩
  · exact .inl ⟨rfl, rfl, rfl⟩
  · exact .inl ⟨hb, rfl, rfl⟩
  · exact .inr ⟨_, _, _, issue_runs (rule := headerSteps) (init := id) hb hp (by simp) (fun _ => rfl) fun _ => rfl⟩
  · exact .inr ⟨_, _, _, issue_runs (rule := loopextSteps) (init := id) hb hp (by simp) (fun _ => rfl) fun _ => rfl⟩
  · exact .inr ⟨_, _, _, issue_runs (rule := frameSteps) (init := id) hb hp (by simp) (fun _ => rfl) fun _ => rfl⟩
  · exact .inr ⟨_, (s.bufferByte b).sbBuf, (s.bufferByte b).sbCnt, issue_runs (rule := pushSteps)
      (init := fun s => s.bufferByte b) hb hp (by simp) (fun _ => rfl) fun _ => rfl⟩
  · exact .inr ⟨_, _, _, issue_runs (rule := frameEndSteps) (init := id) hb hp (by simp) (fun _ => rfl) fun _ => rfl⟩
  · exact .inr ⟨_, _, _, issue_runs (rule := fun _ => trailerSteps) (init := id) hb hp (by simp) (fun _ => rfl) fun _ => rfl⟩

/-! ## What commands leave unchanged -/

theorem runSteps_keepsHostSide {steps : List CmdStep} {s t : State} (h : runSteps steps s = .next t) :
    KeepsHostSide s t where
  hostSide := runSteps_keeps State.hostSide (fun c _ _ => by cases c <;> rfl) (fun _ => rfl) (fun _ => rfl) (fun _ _ => rfl)
    (fun _ => rfl) h
  out := runSteps_out h

theorem exec_keepsHostSide {i : Instr} {s t : State} (h : exec i s = .next t) : KeepsHostSide s t := by
  obtain ⟨-, hhost, hout⟩ | ⟨steps, buf, cnt, hrun⟩ := exec_runs h
  · exact .of_eq hhost hout
  · have hsteps : runSteps steps (s.running buf cnt) = .next t := (hrun s.sink.script).symm.trans h
    have hkeeps := runSteps_keepsHostSide hsteps
    exact ⟨hkeeps.hostSide, hkeeps.out⟩

theorem blockTurn_keepsHostSide {s t : State} (h : blockTurn s = .next t) : KeepsHostSide s t := by
  obtain ⟨-, hr⟩ | ⟨-, rfl⟩ := blockTurn_cases h
  · have hkeeps := runSteps_keepsHostSide hr
    exact ⟨hkeeps.hostSide, hkeeps.out⟩
  · exact .of_eq rfl rfl

/-- The equal host's sides in the words of the claim, the palette byte by byte. -/
theorem KeepsHostSide.same {s t : State} (h : KeepsHostSide s t) :
    Claims.SameHostSide s t ∧ ∃ bs, t.out = s.out ++ bs := by
  have hside := h.hostSide
  simp only [State.hostSide, Prod.mk.injEq] at hside
  obtain ⟨hfc, hdc, hlc, hpl, hmin, hmax, hd, hpal, hreads, hagenda⟩ := hside
  exact ⟨⟨hfc, hdc, hlc, hpl, hmin, hmax, hd, fun a => by rw [hpal], hreads, hagenda⟩, h.out⟩

/-- Settles O28: a command is a run of steps or emits nothing, and with no move to come the step is a turn of the block. -/
theorem commandsLeaveHostSideUnchanged : Obligations.CommandsLeaveHostSideUnchanged := by
  refine ⟨fun i s t h => (exec_keepsHostSide h).same, fun s t ha h => ?_⟩
  have hturn : blockTurn s = .next t := by simpa [step, nextMove, ha] using h
  exact (blockTurn_keepsHostSide hturn).same

/-! ## The output stream -/

/-- Everything a poll of WAIT can do (R98). -/
theorem waitPoll_cases {rest : List Move} {s t : State} (h : waitPoll rest s = .next t) :
    (s.busy = true ∧ blockTurn (s.returnWord s.statusWord) = .next t) ∨
    (s.busy = false ∧ t = (s.returnWord s.statusWord).withAgenda rest) := by
  unfold waitPoll at h
  split at h
  · exact .inl ⟨‹_›, h⟩
  · rename_i hb
    exact .inr ⟨by simpa using hb, (Host.Outcome.next.inj h).symm⟩

@[simp] theorem writeReg_out (s : State) (r : Reg) (v : Word) : (writeReg s r v).out = s.out := by
  cases r <;> rfl

theorem issueWord_out {w : Word} {s t : State} (h : issueWord w s = .next t) : ∃ bs, t.out = s.out ++ bs := by
  obtain ⟨-, ⟨-, -, rfl⟩ | ⟨-, -, rfl⟩ | ⟨i, -, hr⟩⟩ := issueWord_cases h
  · exact ⟨[], by simp⟩
  · exact ⟨[], by simp⟩
  · exact (exec_keepsHostSide hr).out

theorem busWrite_out {off : Offset} {w : Width} {v : Word} {s t : State} (h : busWrite off w v s = .next t) :
    ∃ bs, t.out = s.out ++ bs := by
  obtain ⟨-, -, ⟨-, rfl⟩ | ⟨-, hr⟩ | ⟨r, -, -, rfl⟩⟩ := busWrite_cases h
  · exact ⟨[], by simp⟩
  · exact issueWord_out hr
  · exact ⟨[], by simp⟩

/-- Only offset 0x000 is CMD (R33). -/
theorem eq_zero_of_regAt_cmd {off : Offset} (h : regAt off = some .cmd) : off = 0x000 := by
  unfold regAt at h
  split at h
  case h_1 hoff => exact BitVec.eq_of_toNat_eq hoff
  case h_15 => split at h <;> simp at h
  all_goals simp at h

/-- A write that answers a next state and is not a 32-bit write to CMD emits nothing (R63). -/
theorem busWrite_out_eq {off : Offset} {w : Width} {v : Word} {s t : State} (h : busWrite off w v s = .next t)
    (hne : ¬ (off = 0x000 ∧ w = .bits32)) : t.out = s.out := by
  obtain ⟨hbus, -, ⟨-, rfl⟩ | ⟨hr, -⟩ | ⟨r, -, -, rfl⟩⟩ := busWrite_cases h
  · rfl
  · have hw : w = .bits32 := by cases w <;> simp_all [onBus]
    exact absurd ⟨eq_zero_of_regAt_cmd hr, hw⟩ hne
  · simp

/-- Every step extends the output or leaves it (R65). -/
theorem step_out {s t : State} (h : step s = .next t) : ∃ bs, t.out = s.out ++ bs := by
  obtain ⟨-, hr⟩ | ⟨off, w, rest, -, hr⟩ | ⟨off, w, v, rest, -, hr⟩ | ⟨rest, -, hr⟩ | ⟨rest, -, hr⟩ | ⟨rest, -, rfl⟩ |
    ⟨rest, -, rfl⟩ | ⟨c, rest, -, rfl⟩ | ⟨rest, -, rfl⟩ := step_cases h
  · exact (blockTurn_keepsHostSide hr).out
  · obtain ⟨-, v, rfl⟩ := busRead_cases hr
    exact ⟨[], by simp⟩
  · exact busWrite_out (s := s.withAgenda rest) hr
  · obtain ⟨-, hr⟩ | ⟨-, rfl⟩ := waitPoll_cases hr
    · exact (blockTurn_keepsHostSide (s := s.returnWord _) hr).out
    · exact ⟨[], by simp⟩
  · exact (blockTurn_keepsHostSide (s := s.withAgenda rest) hr).out
  · exact ⟨[], by simp⟩
  · exact ⟨[], by simp [checkError]⟩
  · exact ⟨[], by simp [forwardCompressed]⟩
  · exact ⟨[], by simp⟩

theorem blockTurn_idle {s : State} (hb : s.busy = false) : blockTurn s = .next s := by simp [blockTurn, hb]

/-- With BUSY = 0, a step that is no 32-bit write to CMD leaves the output (R63, R65). -/
theorem step_out_eq {s t : State} (hb : s.busy = false)
    (hcmd : ∀ w rest, s.agenda ≠ .access (.write 0x000 .bits32 w) :: rest) (h : step s = .next t) : t.out = s.out := by
  have hidle : ∀ {u : State}, u.busy = false → u.out = s.out → blockTurn u = .next t → t.out = s.out := by
    intro u hu hout hr
    rw [blockTurn_idle hu] at hr
    rw [← Host.Outcome.next.inj hr, hout]
  obtain ⟨-, hr⟩ | ⟨off, w, rest, -, hr⟩ | ⟨off, w, v, rest, ha, hr⟩ | ⟨rest, -, hr⟩ | ⟨rest, -, hr⟩ | ⟨rest, -, rfl⟩ |
    ⟨rest, -, rfl⟩ | ⟨c, rest, -, rfl⟩ | ⟨rest, -, rfl⟩ := step_cases h
  · exact hidle hb rfl hr
  · obtain ⟨-, v, rfl⟩ := busRead_cases hr
    rfl
  · refine busWrite_out_eq (s := s.withAgenda rest) hr ?_
    rintro ⟨rfl, rfl⟩
    exact hcmd v rest ha
  · obtain ⟨hbusy, -⟩ | ⟨-, rfl⟩ := waitPoll_cases hr
    · simp [hb] at hbusy
    · rfl
  · exact hidle (u := s.withAgenda rest) hb rfl hr
  all_goals rfl

/-- Settles O33 with the two laws of the step. -/
theorem outputStreamOnlyGrows : Obligations.OutputStreamOnlyGrows :=
  ⟨fun _ _ => step_out, fun _ _ => step_out_eq⟩

/-! ## Stalls -/

/-- A turn of a busy block runs the waiting steps (R66). -/
theorem blockTurn_busy {s : State} (hb : s.busy = true) : blockTurn s = runSteps s.pending s.takeUp := by
  simp [blockTurn, hb]

theorem State.beginCommand_of_busy {s : State} (hb : s.busy = true) : s.beginCommand = s := by
  simp [State.beginCommand, ← hb]

/-- A run that the first stall cuts, given one turn, ends as the run whose sink does not have that stall. -/
theorem blockTurn_after_stall {steps : List CmdStep} {s t : State} {before later : List SinkAnswer} (hb : s.busy = true)
    (hp : s.pending = []) (hk : s.sink.script = before ++ .stall :: later) (hbefore : ∀ a ∈ before, a = .accept)
    (h : runSteps steps s = .next t) (ht : t.busy = true) :
    blockTurn t = runSteps steps (s.withScript (before ++ later)) := by
  induction steps generalizing s before with
  | nil =>
    obtain rfl := Host.Outcome.next.inj h
    simp at ht
  | cons c steps ih =>
    cases c with
    | emit b =>
      cases before with
      | nil =>
        have hstall : s.sink.answer = .stall := by simp [Sink.answer, hk]
        have hlater : s.answered = s.withScript later := by
          simp [State.answered, Sink.next, State.withScript, hk]
        simp only [runSteps, hstall] at h
        obtain rfl := Host.Outcome.next.inj h
        rw [hlater, List.nil_append, blockTurn_suspend (s := s.withScript later) hp,
          State.beginCommand_of_busy (s := s.withScript later) hb]
      | cons a before =>
        obtain rfl : a = .accept := hbefore a List.mem_cons_self
        have haccept : s.sink.answer = .accept := by simp [Sink.answer, hk]
        simp only [runSteps, haccept] at h
        exact ih (s := s.answered.append b) (before := before) hb hp (by simp [Sink.next, hk])
          (fun a ha => hbefore a (List.mem_cons_of_mem _ ha)) h
    | unwritten i => simp [runSteps] at h
    | scan i e => exact ih (s := s.scanEntry i e) hb hp hk hbefore h
    | setPhase p => exact ih (s := s.setPhase p) hb hp hk hbefore h
    | clearFill => exact ih (s := s.clearFill) hb hp hk hbefore h
    | endFrame => exact ih (s := s.countFrame) hb hp hk hbefore h

/-- Settles O31: a command that ends with BUSY = 1 is a run of steps, cut at the sink's first stall. -/
theorem stallOnlyDelaysCommand : Obligations.StallOnlyDelaysCommand := by
  intro i s t before later hb hp hk hbefore h ht
  obtain ⟨hidle, -⟩ | ⟨steps, buf, cnt, hrun⟩ := exec_runs h
  · simp [ht] at hidle
  · have hsteps : runSteps steps (s.running buf cnt) = .next t := (hrun s.sink.script).symm.trans h
    exact (blockTurn_after_stall (s := s.running buf cnt) rfl hp hk hbefore hsteps ht).trans (hrun (before ++ later)).symm

/-- Settles O30: the waiting steps begin with the offered Emit, one case per answer. -/
theorem offeredByteIsAnswered : Obligations.OfferedByteIsAnswered := by
  intro s b rest hb hp
  have hturn : blockTurn s = runSteps (.emit b :: rest) s.takeUp := by rw [blockTurn_busy hb, hp]
  refine ⟨fun ha => ?_, fun ha => ?_, fun ha => ?_⟩
  · rw [hturn, blockTurn_busy (by exact hb)]
    simp [runSteps, ha, State.takeUp, State.answered, State.append, Sink.next_eq_after]
  · rw [hturn]
    simp [runSteps, ha, State.takeUp, State.answered, State.suspend, Sink.next_eq_after, ← hb, ← hp]
  · rw [hturn]
    simp [runSteps, ha, State.takeUp, State.answered, raiseError, State.enterError, Sink.next_eq_after]

end Sys2Proof.Machine
end

section
/-! PROOF. The host window (20_memory.md R61 to R63): what a write stores outside CMD and the palette, that only a CMD write
does more, and the accesses that are not on the bus. -/

namespace Sys2Proof.Machine

/-! ## What is written -/

/-- The low half of a word, as a number (R83). -/
theorem lowHalf_eq (v : Word) : lowHalf v = BitVec.ofNat 16 (v.toNat % 2 ^ 16) := by
  apply BitVec.eq_of_toNat_eq
  simp [lowHalf]

/-- A write where the window has no register changes nothing (R62). -/
theorem step_write_unmapped {s : State} {off : Offset} {v : Word} {rest : List Move} (hb : s.busy = false)
    (h : s.agenda = .access (.write off .bits32 v) :: rest) (ha : off.toNat % 4 = 0) (hr : regAt off = none) :
    step s = .next (s.withAgenda rest) := by
  simp [step_write h, busWrite, onBus_aligned ha, hr, hb]

/-- The offsets 0x024 to 0x3FC are the read-only registers TRANS to SB_FILL and offsets without a register (R33). -/
theorem readOnly_or_unmapped {off : Offset} (ha : off.toNat % 4 = 0) (hlo : 0x024 ≤ off.toNat) (hhi : off.toNat < 0x400) :
    (∃ r, r ∈ [Reg.trans, .info, .loopNorm, .framesDone, .sbFill] ∧ off = r.offset) ∨ regAt off = none := by
  obtain h | h | h | h | h | h : off.toNat = 0x024 ∨ off.toNat = 0x028 ∨ off.toNat = 0x02C ∨ off.toNat = 0x030 ∨
      off.toNat = 0x034 ∨ 0x038 ≤ off.toNat := by omega
  · exact .inl ⟨.trans, by simp, BitVec.eq_of_toNat_eq h⟩
  · exact .inl ⟨.info, by simp, BitVec.eq_of_toNat_eq h⟩
  · exact .inl ⟨.loopNorm, by simp, BitVec.eq_of_toNat_eq h⟩
  · exact .inl ⟨.framesDone, by simp, BitVec.eq_of_toNat_eq h⟩
  · exact .inl ⟨.sbFill, by simp, BitVec.eq_of_toNat_eq h⟩
  · exact .inr (regAt_unmapped (.inl ⟨h, hhi⟩))

/-- A write of a read-only register is ignored (R62). -/
theorem writeReg_readOnly {r : Reg} (hr : r ∈ [Reg.trans, .info, .loopNorm, .framesDone, .sbFill]) (s : State) (v : Word) :
    writeReg s r v = s := by
  simp only [List.mem_cons, List.not_mem_nil, or_false] at hr
  obtain rfl | rfl | rfl | rfl | rfl := hr <;> rfl

/-- Settles O37, one register or range of offsets at a time. -/
theorem writesStoreRegisterTable : Obligations.WritesStoreRegisterTable := by
  intro s off v rest hb ha h
  refine ⟨?_, ?_, ?_, ?_, ?_, ?_, ?_, ?_⟩
  · rintro rfl
    exact step_write_reg (r := .frameCount) hb (by simp) h
  · rintro rfl
    exact step_write_reg (r := .delayCount) hb (by simp) h
  · rintro rfl
    exact step_write_reg (r := .loopCount) hb (by simp) h
  · rintro rfl
    exact step_write_reg (r := .palLen) hb (by simp) h
  · rintro rfl
    exact step_write_reg (r := .frameMin) hb (by simp) h
  · rintro rfl
    exact step_write_reg (r := .frameMax) hb (by simp) h
  · rintro rfl
    rw [← lowHalf_eq]
    exact step_write_reg (r := .delay) hb (by simp) h
  · rintro (rfl | ⟨hlo, hhi⟩ | hlo)
    · exact step_write_reg (r := .status) hb (by simp) h
    · obtain ⟨r, hr, rfl⟩ | hr := readOnly_or_unmapped ha hlo hhi
      · rw [step_write_reg hb (by rintro rfl; simp at hr) h, writeReg_readOnly hr]
        rfl
      · exact step_write_unmapped hb h ha hr
    · exact step_write_unmapped hb h ha (regAt_unmapped (.inr hlo))

/-! ## Side effects -/

/-- A stored register changes only host-written registers and the palette (R63). -/
theorem writeReg_eq (s : State) (r : Reg) (v : Word) : writeReg s r v =
    { s with
      frameCount := (writeReg s r v).frameCount, delayCount := (writeReg s r v).delayCount
      loopCount := (writeReg s r v).loopCount, palLen := (writeReg s r v).palLen
      frameMin := (writeReg s r v).frameMin, frameMax := (writeReg s r v).frameMax
      delay := (writeReg s r v).delay, palette := (writeReg s r v).palette } := by
  cases r <;> rfl

/-- Settles O39: a read returns a word, and a write at an offset other than CMD's is ignored or stores its word. -/
theorem onlyCmdWritesHaveSideEffects : Obligations.OnlyCmdWritesHaveSideEffects := by
  refine ⟨fun s t off width rest ha h => ?_, fun s t off width v rest hoff ha h => ?_⟩
  · rw [step_read ha] at h
    obtain ⟨-, v, rfl⟩ := busRead_cases h
    exact ⟨v, rfl⟩
  · rw [step_write ha] at h
    obtain ⟨-, -, ⟨-, rfl⟩ | ⟨hr, -⟩ | ⟨r, -, -, rfl⟩⟩ := busWrite_cases h
    · rfl
    · exact absurd (eq_zero_of_regAt_cmd hr) hoff
    · exact writeReg_eq _ r v

/-! ## Accesses that are not on the bus -/

/-- The accesses R61 gives a meaning are those on the bus. -/
theorem Access.wellFormed_eq_onBus (a : Access) : a.wellFormed = onBus a.offset a.width := by
  cases a with
  | read off width => cases width <;> rfl
  | write off width v => cases width <;> rfl

/-- Settles O34: both kinds of access first check that they are on the bus. -/
theorem misalignedOrNarrowAccessFaults : Obligations.MisalignedOrNarrowAccessFaults := by
  intro s a rest h hwf
  rw [Access.wellFormed_eq_onBus] at hwf
  cases a with
  | read off width => exact (step_read h).trans (if_pos hwf)
  | write off width v => exact (step_write h).trans (if_pos hwf)

end Sys2Proof.Machine
end

section
/-! PROOF. The encoding (30_encoding.md R80 to R85): the words that decode, by their fields as numbers, and what the others
do at CMD. -/

namespace Sys2Proof.Machine

/-- Settles O1: the decoder and the encoder are inverse to each other. -/
theorem decodeAndEncodeAgree : Obligations.DecodeAndEncodeAgree := by
  intro w i _
  refine ⟨encode_of_decode, ?_⟩
  rintro rfl
  exact decode_encode i

/-- Settles O3, each word by its evaluation. -/
theorem opcodeMapWordsDecode : Obligations.OpcodeMapWordsDecode :=
  ⟨rfl, rfl, rfl, rfl, rfl, rfl, rfl, rfl, rfl, rfl, rfl, rfl⟩

/-! ## The words that decode -/

theorem op_toNat (w : Word) : (fieldsOf w).op.toNat = w.toNat % 2 ^ 8 := by simp [fieldsOf]

theorem imm_toNat (w : Word) : (fieldsOf w).imm.toNat = w.toNat / 2 ^ 8 % 2 ^ 8 := by
  simp [fieldsOf, Nat.shiftRight_eq_div_pow]

theorem rsv_toNat (w : Word) : (fieldsOf w).rsv.toNat = w.toNat / 2 ^ 16 := by
  simp only [fieldsOf, BitVec.extractLsb'_toNat, Nat.shiftRight_eq_div_pow]
  omega

/-- The opcodes of the map are 0 to 8 (R82, R84). -/
theorem exists_ofOpcode_iff {op : Nat} {imm : Byte} : (∃ i, ofOpcode op imm = some i) ↔ op ≤ 8 := by
  constructor
  · rintro ⟨i, hi⟩
    rw [opcode_of_ofOpcode hi]
    cases i <;> simp [opcode]
  · intro h
    interval_cases op <;> exact ⟨_, rfl⟩

/-- A word decodes exactly when its fields, as numbers, are legal (R81). -/
theorem exists_decode_iff (w : Word) : (∃ i, decode w = .ok i) ↔
    (w.toNat % 2 ^ 8 ≤ 8 ∧ w.toNat / 2 ^ 16 = 0 ∧ (w.toNat % 2 ^ 8 = 5 ∨ w.toNat / 2 ^ 8 % 2 ^ 8 = 0)) := by
  simp only [decode_eq_ok_iff, exists_and_right, exists_ofOpcode_iff, BitVec.toNat_eq, op_toNat, imm_toNat, rsv_toNat]
  rfl

/-- The command of a word has the word's opcode and operand (R80, R83). -/
theorem fields_of_decode {w : Word} {i : Instr} (h : decode w = .ok i) :
    (opcode i).toNat = w.toNat % 2 ^ 8 ∧ (immOf i).toNat = w.toNat / 2 ^ 8 % 2 ^ 8 := by
  rw [← encode_of_decode h, ← op_toNat, ← imm_toNat, fieldsOf_encode]
  exact ⟨rfl, rfl⟩

/-! ## The words that do not -/

/-- A 32-bit write to CMD issues its word (R34). -/
theorem step_cmd {s : State} {w : Word} {rest : List Move} (h : s.agenda = .access (.write 0x000 .bits32 w) :: rest) :
    step s = issueWord w (s.withAgenda rest) := by
  rw [step_write h, busWrite_cmd rfl rfl]

/-- Outside ERROR a word that does not decode raises IllegalCommand (R81). -/
theorem issueWord_illegal {s : State} {w : Word} (hb : s.busy = false) (hd : ∀ i, decode w ≠ .ok i)
    (hp : s.phase ≠ .error) : issueWord w s = raiseError .illegalCommand s := by
  cases hw : decode w with
  | ok i => exact absurd hw (hd i)
  | error e => simp [issueWord, hb, hp, hw]

/-- In ERROR every word but NOP's and ABORT's is ignored (R224). -/
theorem issueWord_ignored {s : State} {w : Word} (hb : s.busy = false) (hp : s.phase = .error) (hnop : w ≠ 0)
    (habort : w ≠ 8) : issueWord w s = .next s := by
  have hw : leavesIgnoring w = false :=
    Bool.or_eq_false_iff.2 ⟨beq_eq_false_iff_ne.2 hnop, beq_eq_false_iff_ne.2 habort⟩
  simp [issueWord, hb, hp, hw]

/-- Settles O2: the decoder's checks on the word's numbers, and the CMD write of a word that fails them. -/
theorem illegalWordsRaiseIllegalCommand : Obligations.IllegalWordsRaiseIllegalCommand := by
  refine ⟨exists_decode_iff, fun w i => fields_of_decode, fun s w rest ha hb hd hp => ?_,
    fun s w rest ha hb hp h0 h8 => ?_⟩
  · rw [step_cmd ha, issueWord_illegal (by exact hb) hd (by exact hp)]
    simp [raiseError, State.enterError, State.withAgenda, hb]
  · rw [step_cmd ha, issueWord_ignored (by exact hb) (by exact hp) h0 h8]
    rfl

end Sys2Proof.Machine
end

section
/-! PROOF. The moves of the host (30_encoding.md R98, R99): one step per move while no command is cut by a stall, the
pseudo-instructions SETFRAME and BEGIN, and EncodeAll's end when BEGIN fails. -/

namespace Sys2Proof.Machine

open Claims

/-! ## One move -/

/-- Settles O40: a poll of WAIT, by BUSY. -/
theorem waitPollsUntilNotBusy : Obligations.WaitPollsUntilNotBusy := by
  intro s rest h
  have hstep : step s = waitPoll rest s := by simp [step, nextMove, h]
  refine ⟨fun hb => ?_, fun hb => ?_⟩
  · simp [hstep, waitPoll, hb, State.returnWord, State.withAgenda]
  · simp [hstep, waitPoll, hb, State.returnWord]

theorem step_checkError {s : State} {rest : List Move} (h : s.agenda = .checkError :: rest) :
    step s = .next (checkError rest s) := by
  simp [step, nextMove, h]

/-- A look at INFO has the bytes compressed for MCS come next (R99, R161). -/
theorem step_compressed {s : State} {compress : BitVec 4 → List Byte → List Byte} {indices : List Byte}
    {rest : List Move} (h : s.agenda = compressedMove compress indices :: rest) :
    step s = .next { s with
      agenda := (compress s.mcs indices).flatMap (fun b => checkedMoves (.push b)) ++ rest
      reads := s.reads ++ [s.infoWord] } := by
  have hstep : step s = .next (forwardCompressed
      (Vector.ofFn fun m : Fin 16 => compress (BitVec.ofFin m) indices) rest s) := by
    simp [step, nextMove, h, compressedMove]
  simp [hstep, forwardCompressed, State.returnWord, State.withAgenda]

/-- The host's moves inside a call, as the claims name them. -/
theorem Move.inCall_of_ne {m : Move} (h : m ≠ .callEnd ∧ m ≠ .turn ∧ m ≠ .reset) : Move.inCall m = true := by
  cases m <;> simp_all [Move.inCall]

/-- Settles O43 with the look at STATUS in its two cases and the look at INFO. -/
theorem hostLooksAtStatusAndInfo : Obligations.HostLooksAtStatusAndInfo := by
  refine ⟨fun s rest h => ⟨fun hp => ?_, fun inside after hp hin hrest => ?_⟩,
    fun s compress indices rest => step_compressed⟩
  · rw [step_checkError h, checkError_goesOn hp]
  · rw [step_checkError h, checkError_stops hp, hrest, skipCall_append fun m hm => Move.inCall_of_ne (hin m hm)]

/-! ## Several moves -/

/-- The steps of two runs, one after the other. -/
theorem steps_trans {m n : Nat} {s t u : State} (h : Steps m s t) (g : Steps n t u) : Steps (m + n) s u := by
  induction m generalizing s with
  | zero =>
    obtain rfl : t = s := h
    rwa [Nat.zero_add]
  | succ m ih =>
    obtain ⟨v, hv, h⟩ := h
    rw [Nat.succ_add]
    exact ⟨v, hv, ih h⟩

theorem steps_one {s t : State} (h : step s = .next t) : Steps 1 s t := ⟨t, h, rfl⟩

/-- The state with the host's own fields replaced: the words it has read and its moves to come. -/
def State.facing (s : State) (reads : List Word) (moves : List Move) : State := { s with reads := reads, agenda := moves }

/-- A run of steps does not look at the host's own fields (R13). -/
theorem runSteps_facing {steps : List CmdStep} {s t : State} (reads : List Word) (moves : List Move)
    (h : runSteps steps s = .next t) : runSteps steps (s.facing reads moves) = .next (t.facing reads moves) := by
  induction steps generalizing s with
  | nil =>
    obtain rfl := Host.Outcome.next.inj h
    rfl
  | cons c steps ih =>
    cases c with
    | emit b =>
      have hsink : (s.facing reads moves).sink = s.sink := rfl
      simp only [runSteps, hsink] at h ⊢
      split at h
      · exact ih h
      · obtain rfl := Host.Outcome.next.inj h
        rfl
      · obtain rfl := Host.Outcome.next.inj h
        rfl
    | unwritten i => simp [runSteps] at h
    | scan i e => exact ih (s := s.scanEntry i e) h
    | setPhase p => exact ih (s := s.setPhase p) h
    | clearFill => exact ih (s := s.clearFill) h
    | endFrame => exact ih (s := s.countFrame) h

/-- A command whose rule does not look at the host's own fields does not look at them in its checks either (R200). -/
theorem issue_facing {legal : List Phase} {run : State → Result} {s t : State} {reads : List Word} {moves : List Move}
    (hrun : ∀ {u v : State}, run u = .next v → run (u.facing reads moves) = .next (v.facing reads moves))
    (h : issue legal run s = .next t) : issue legal run (s.facing reads moves) = .next (t.facing reads moves) := by
  obtain ⟨hb, ⟨hp, rfl⟩ | ⟨he, hp, hr⟩ | ⟨he, hp, rfl⟩⟩ := issue_cases h
  · simp [issue, State.facing, hb, hp]
  · rw [issue_legal (s := s.facing reads moves) hb hp he]
    exact hrun hr
  · simp [issue, State.facing, hb, hp, he, raiseError, State.enterError]

theorem issueAlways_facing {run : State → Result} {s t : State} {reads : List Word} {moves : List Move}
    (hrun : ∀ {u v : State}, run u = .next v → run (u.facing reads moves) = .next (v.facing reads moves))
    (h : issueAlways run s = .next t) : issueAlways run (s.facing reads moves) = .next (t.facing reads moves) := by
  obtain ⟨hb, hr⟩ := issueAlways_cases h
  have hbusy : (s.facing reads moves).busy = false := hb
  rw [issueAlways, if_neg (by simp [hbusy])]
  exact hrun hr

/-- A command that is a run of steps, which its rule does not choose by the host's own fields. -/
theorem issue_steps_facing {legal : List Phase} {rule : State → List CmdStep} {s t : State} {reads : List Word}
    {moves : List Move} (hrule : ∀ u : State, rule (u.facing reads moves) = rule u)
    (h : issue legal (fun s => runSteps (rule s) s) s = .next t) :
    issue legal (fun s => runSteps (rule s) s) (s.facing reads moves) = .next (t.facing reads moves) :=
  issue_facing (fun {u v} hr => by rw [hrule]; exact runSteps_facing reads moves hr) h

/-- START's rule looks at the counts only (R190). -/
theorem startStream_facing {s t : State} (reads : List Word) (moves : List Move) (h : startStream s = .next t) :
    startStream (s.facing reads moves) = .next (t.facing reads moves) := by
  have hcheck : startCheck (s.facing reads moves) = startCheck s := rfl
  unfold startStream at h ⊢
  rw [hcheck]
  cases hc : startCheck s with
  | some code =>
    rw [hc] at h
    obtain rfl := Host.Outcome.next.inj h
    rfl
  | none =>
    rw [hc] at h
    obtain rfl := Host.Outcome.next.inj h
    rfl

/-- No command looks at what the host has read or will do. -/
theorem exec_facing {i : Instr} {s t : State} (reads : List Word) (moves : List Move) (h : exec i s = .next t) :
    exec i (s.facing reads moves) = .next (t.facing reads moves) := by
  cases i with
  | nop =>
    refine issueAlways_facing (run := fun s => .next s.endCommand) (fun hr => ?_) h
    obtain rfl := Host.Outcome.next.inj hr
    rfl
  | abort =>
    refine issueAlways_facing (run := fun s => .next s.abandon.endCommand) (fun hr => ?_) h
    obtain rfl := Host.Outcome.next.inj hr
    rfl
  | start => exact issue_facing (startStream_facing reads moves) h
  | header => exact issue_steps_facing (rule := headerSteps) (fun _ => rfl) h
  | loopext => exact issue_steps_facing (rule := loopextSteps) (fun _ => rfl) h
  | frame => exact issue_steps_facing (rule := frameSteps) (fun _ => rfl) h
  | push b =>
    exact issue_facing (run := fun s => runSteps (pushSteps (s.bufferByte b)) (s.bufferByte b))
      (fun {u v} => runSteps_facing (s := u.bufferByte b) reads moves) h
  | frameEnd => exact issue_steps_facing (rule := frameEndSteps) (fun _ => rfl) h
  | trailer => exact issue_steps_facing (rule := fun _ => trailerSteps) (fun _ => rfl) h

/-- The moves take the block from s to t in n steps, whatever the host has read and whatever follows them. -/
def Drives (n : Nat) (moves : List Move) (s t : State) : Prop :=
  ∀ reads rest, ∃ reads', Steps n (s.facing reads (moves ++ rest)) (t.facing reads' rest)

theorem Drives.nil (s : State) : Drives 0 [] s s := fun reads _ => ⟨reads, rfl⟩

theorem Drives.append {m n : Nat} {l l' : List Move} {s t u : State} (h : Drives m l s t) (g : Drives n l' t u) :
    Drives (m + n) (l ++ l') s u := by
  intro reads rest
  obtain ⟨reads₁, h⟩ := h reads (l' ++ rest)
  obtain ⟨reads₂, g⟩ := g reads₁ rest
  rw [List.append_assoc]
  exact ⟨reads₂, steps_trans h g⟩

/-- Moves that stand first in a state's agenda. -/
theorem Drives.steps {n : Nat} {moves rest : List Move} {s t : State} (h : Drives n moves s t)
    (ha : s.agenda = moves ++ rest) : ∃ reads, Steps n s (t.facing reads rest) := by
  obtain ⟨reads, h⟩ := h s.reads rest
  rw [← ha] at h
  exact ⟨reads, h⟩

/-- A write of a register other than CMD (R61). -/
theorem drives_write {s : State} {r : Reg} (v : Nat) (hb : s.busy = false) (hr : r ≠ .cmd) :
    Drives 1 [writeMove r v] s (writeReg s r (BitVec.ofNat 32 v)) := by
  intro reads rest
  refine ⟨reads, steps_one ?_⟩
  rw [step_write_reg (s := s.facing reads ([writeMove r v] ++ rest)) hb hr rfl]
  cases r <;> rfl

/-- The CMD write of a command's word runs the command (R34). -/
theorem drives_command {s t : State} {i : Instr} (h : exec i s = .next t) :
    Drives 1 [commandMove (encode i)] s t := fun reads rest =>
  ⟨reads, steps_one ((cmdWriteRunsDecodedCommand.1 (s.facing reads _) _ i rest rfl (decode_encode i)).trans
    (exec_facing (s := s) reads rest h))⟩

/-- A WAIT that finds BUSY = 0. -/
theorem drives_wait {s : State} (hb : s.busy = false) : Drives 1 [.wait] s s := fun _ rest =>
  ⟨_, steps_one ((waitPollsUntilNotBusy _ rest rfl).1 hb)⟩

/-- A look at STATUS outside ERROR. -/
theorem drives_checkError {s : State} (hp : s.phase ≠ .error) : Drives 1 [.checkError] s s := fun _ rest =>
  ⟨_, steps_one ((hostLooksAtStatusAndInfo.1 _ rest rfl).1 hp)⟩

/-- A command with its WAIT (R98). -/
theorem drives_runInstr {s t : State} {i : Instr} (hb : t.busy = false) (h : exec i s = .next t) :
    Drives 2 (runInstr i) s t :=
  (drives_command h).append (drives_wait hb)

/-- A command of EncodeAll that does not end in ERROR (R99). -/
theorem drives_checkedMoves {s t : State} {i : Instr} (hb : t.busy = false) (hp : t.phase ≠ .error)
    (h : exec i s = .next t) : Drives 3 (checkedMoves i) s t :=
  (drives_runInstr hb h).append (drives_checkError hp)

/-- The look at INFO, and then the pushes it brings (R99, R161). -/
theorem drives_compressed {n : Nat} {s t : State} {compress : BitVec 4 → List Byte → List Byte} {indices : List Byte}
    (h : Drives n ((compress s.mcs indices).flatMap fun b => checkedMoves (.push b)) s t) :
    Drives (1 + n) [compressedMove compress indices] s t := by
  intro reads rest
  obtain ⟨reads', h⟩ := h (reads ++ [s.infoWord]) rest
  exact ⟨reads', steps_trans (steps_one (step_compressed (s := s.facing reads _) rfl)) h⟩

/-! ## SETFRAME (R98) -/

/-- The state with the two bound words and the delay of SETFRAME stored. -/
def State.withFrame (s : State) (lo hi : Word) (wait : Half) : State :=
  { s with frameMin := lo, frameMax := hi, delay := wait }

theorem withFrame_eq (s : State) (lo hi : Word) (wait : Half) (moves : List Move) :
    (s.withFrame lo hi wait).withAgenda moves = { s with
      agenda := moves, frameMin := ((s.withFrame lo hi wait).withAgenda moves).frameMin
      frameMax := ((s.withFrame lo hi wait).withAgenda moves).frameMax
      delay := ((s.withFrame lo hi wait).withAgenda moves).delay } := rfl

theorem lowHalf_toNat (v : Word) : (lowHalf v).toNat = v.toNat % 2 ^ 16 := by simp [lowHalf]

theorem highHalf_toNat (v : Word) : (highHalf v).toNat = v.toNat / 2 ^ 16 := by
  have hv := v.isLt
  simp only [highHalf, BitVec.extractLsb'_toNat, Nat.shiftRight_eq_div_pow]
  omega

theorem lowHalf_ofNat (d : Nat) : lowHalf (BitVec.ofNat 32 d) = BitVec.ofNat 16 d := by
  apply BitVec.eq_of_toNat_eq
  simp [lowHalf_toNat]

/-- The three writes of SETFRAME store their words in three steps and touch nothing else. -/
theorem steps_frameWrites {s : State} {lo hi d : Nat} {rest : List Move} (hb : s.busy = false)
    (h : s.agenda = [writeMove .frameMin lo, writeMove .frameMax hi, writeMove .delay d] ++ rest) :
    Steps 3 s ((s.withFrame (BitVec.ofNat 32 lo) (BitVec.ofNat 32 hi) (BitVec.ofNat 16 d)).withAgenda rest) := by
  refine ⟨_, step_write_reg (r := .frameMin) hb (by simp) h, _, step_write_reg (r := .frameMax) hb (by simp) rfl, _,
    step_write_reg (r := .delay) hb (by simp) rfl, ?_⟩
  simp only [writeReg, lowHalf_ofNat]
  rfl

theorem drives_setFrame {s : State} (minx miny maxx maxy d : Nat) (hb : s.busy = false) :
    Drives 3 (setFrameMoves minx miny maxx maxy d) s (s.withFrame (BitVec.ofNat 32 (boundWord minx miny))
      (BitVec.ofNat 32 (boundWord maxx maxy)) (BitVec.ofNat 16 d)) :=
  fun reads rest => ⟨reads, steps_frameWrites (s := s.facing reads _) (rest := rest) hb rfl⟩

theorem boundWord_toNat (x y : Nat) : (BitVec.ofNat 32 (boundWord x y)).toNat = (y * 65536 + x) % 4294967296 :=
  BitVec.toNat_ofNat _ _

/-- The two bounds of a SETFRAME word, read back (R39). -/
theorem boundWord_halves {x y : Nat} (hx : x < 2 ^ 16) (hy : y < 2 ^ 16) :
    (lowHalf (BitVec.ofNat 32 (boundWord x y))).toNat = x ∧ (highHalf (BitVec.ofNat 32 (boundWord x y))).toNat = y := by
  rw [lowHalf_toNat, highHalf_toNat, boundWord_toNat]
  omega

/-- Settles O41: the three stored words, read back through their fields. -/
theorem setFrameStoresBoundsAndDelay : Obligations.SetFrameStoresBoundsAndDelay := by
  intro s minx miny maxx maxy d rest hb hwf ha
  simp only [HostLine.wellFormed, Bool.and_eq_true, decide_eq_true_eq] at hwf
  obtain ⟨⟨⟨⟨hminx, hminy⟩, hmaxx⟩, hmaxy⟩, -⟩ := hwf
  obtain ⟨hmin, hmin'⟩ := boundWord_halves hminx hminy
  obtain ⟨hmax, hmax'⟩ := boundWord_halves hmaxx hmaxy
  exact ⟨_, steps_frameWrites hb ha, withFrame_eq .., hmin, hmin', hmax, hmax', BitVec.toNat_ofNat _ _⟩

/-! ## BEGIN (R98, R190) -/

/-- What START makes of a state in a phase that admits it (R190, R194). -/
def State.started (s : State) : State :=
  match startCheck s with
  | some code => s.enterError code
  | none => s.openStream

theorem started_of_some {s : State} {code : ErrKind} (h : startCheck s = some code) : s.started = s.enterError code := by
  simp [State.started, h]

theorem started_of_none {s : State} (h : startCheck s = none) : s.started = s.openStream := by
  simp [State.started, h]

/-- START in IDLE or DONE (R190, R194, R200). -/
theorem exec_start {s : State} (hb : s.busy = false) (hp : s.phase = .idle ∨ s.phase = .done) :
    exec .start s = .next s.started := by
  have hissue : exec .start s = startStream s.beginCommand :=
    issue_legal hb (by simpa using hp) (by rcases hp with hp | hp <;> simp [hp])
  have hcheck : startCheck s.beginCommand = startCheck s := rfl
  rw [hissue, startStream, hcheck]
  cases hc : startCheck s with
  | some code => simp [started_of_some hc, raiseError, State.enterError, State.beginCommand]
  | none => simp [started_of_none hc, State.openStream, State.endCommand, State.beginCommand, hb]

/-- START either fails a check or opens a stream. -/
theorem started_cases (s : State) :
    (∃ code, startCheck s = some code ∧ s.started = s.enterError code) ∨
    (startCheck s = none ∧ s.started = s.openStream) := by
  cases hc : startCheck s with
  | some code => exact .inl ⟨code, rfl, started_of_some hc⟩
  | none => exact .inr ⟨rfl, started_of_none hc⟩

/-- START ends with BUSY = 0, emits nothing and keeps the host's side, with or without an error. -/
theorem started_keeps {s : State} (hb : s.busy = false) :
    s.started.busy = false ∧ s.started.out = s.out ∧ s.started.hostSide = s.hostSide := by
  obtain ⟨code, -, h⟩ | ⟨-, h⟩ := started_cases s <;> rw [h]
  · exact ⟨rfl, rfl, rfl⟩
  · exact ⟨hb, rfl, rfl⟩

/-- The state with the four counts of BEGIN stored. -/
def State.withCounts (s : State) (f dc loop n : Nat) : State :=
  { s with
    frameCount := BitVec.ofNat 32 f
    delayCount := BitVec.ofNat 32 dc
    loopCount := BitVec.ofNat 32 loop
    palLen := BitVec.ofNat 32 n }

/-- BEGIN stores the counts and runs START, in six steps. -/
theorem drives_begin {s : State} (f dc loop n : Nat) (hb : s.busy = false) (hp : s.phase = .idle ∨ s.phase = .done) :
    Drives 6 (beginMoves f dc loop n) s (s.withCounts f dc loop n).started := by
  have hwrites : Drives 4 [writeMove .frameCount f, writeMove .delayCount dc, writeMove .loopCount loop, writeMove .palLen n]
      s (s.withCounts f dc loop n) :=
    (((drives_write f (by exact hb) (by simp)).append (drives_write dc (by exact hb) (by simp))).append
      (drives_write loop (by exact hb) (by simp))).append (drives_write n (by exact hb) (by simp))
  exact hwrites.append (drives_runInstr (started_keeps (by exact hb)).1 (exec_start (by exact hb) (by exact hp)))

theorem toNat_ofNat_of_lt {v : Nat} (h : v < 2 ^ 32) : (BitVec.ofNat 32 v).toNat = v := by
  rw [BitVec.toNat_ofNat, Nat.mod_eq_of_lt h]

/-- The palette lengths START admits, as numbers (R38). -/
theorem legalPaletteLength_ofNat {n : Nat} (hn : n < 2 ^ 32) :
    legalPaletteLength (BitVec.ofNat 32 n) = decide (n ∈ [2, 4, 8, 16, 32, 64, 128, 256]) := by
  simp only [legalPaletteLength, Config.paletteLengths, List.contains_eq_mem, List.mem_cons, List.not_mem_nil,
    BitVec.toNat_eq, BitVec.toNat_ofNat, Nat.mod_eq_of_lt hn, BitVec.ofNat_eq_ofNat]

/-- START's checks on the counts that BEGIN wrote, when they fit their registers (R190). -/
theorem startCheck_withCounts (s : State) {f dc n : Nat} (loop : Nat) (hf : f < 2 ^ 32) (hdc : dc < 2 ^ 32)
    (hn : n < 2 ^ 32) : startCheck (s.withCounts f dc loop n) =
      if f ≠ dc then some .frameDelayCountMismatch else if f = 0 then some .emptyAnimation
      else if n ∈ [2, 4, 8, 16, 32, 64, 128, 256] then none else some .paletteLengthError := by
  have hcounts : BitVec.ofNat 32 f = BitVec.ofNat 32 dc ↔ f = dc := by
    rw [BitVec.toNat_eq, toNat_ofNat_of_lt hf, toNat_ofNat_of_lt hdc]
  have hzero : BitVec.ofNat 32 f = 0 ↔ f = 0 := by
    rw [BitVec.toNat_eq, toNat_ofNat_of_lt hf]
    rfl
  simp only [startCheck, State.withCounts, legalPaletteLength_ofNat hn, hcounts, hzero, ne_eq]
  split_ifs <;> simp_all

/-- The powers of two from 2 to 256 are the palette lengths of R38. -/
theorem pow_mem_lengths {k : Nat} (h1 : 1 ≤ k) (h8 : k ≤ 8) : 2 ^ k ∈ [2, 4, 8, 16, 32, 64, 128, 256] := by
  interval_cases k <;> decide

/-- PAL_K and MCS of a palette of 2^k entries (R27, R28). -/
theorem latched_pow {k : Nat} (h1 : 1 ≤ k) (h8 : k ≤ 8) : latchedPalK (BitVec.ofNat 32 (2 ^ k)) = BitVec.ofNat 4 k ∧
    latchedMcs (BitVec.ofNat 32 (2 ^ k)) = BitVec.ofNat 4 (if k = 1 then 2 else k + 1) := by
  interval_cases k <;> decide

/-- Settles O42 with BEGIN's six steps; START's checks decide between the opened stream and the error. -/
theorem beginOpensStream : Obligations.BeginOpensStream := by
  intro s f dc loop n rest hb hp hwf ha
  simp only [HostLine.wellFormed, Bool.and_eq_true, decide_eq_true_eq] at hwf
  obtain ⟨⟨⟨hf, hdc⟩, hloop⟩, hn⟩ := hwf
  obtain ⟨reads, hsteps⟩ := (drives_begin f dc loop n hb hp).steps ha
  obtain ⟨hbusy, hout, hside⟩ := started_keeps (s := s.withCounts f dc loop n) hb
  have hcheck := startCheck_withCounts s loop hf hdc hn
  simp only [State.hostSide, Prod.mk.injEq] at hside
  obtain ⟨hfc, hdc', hlc, hpl, -⟩ := hside
  refine ⟨_, hsteps, rfl, hbusy, hout, ?_, ?_, ?_, ?_, fun k hfd hne h1 h8 hk => ?_, fun hne => ?_⟩
  · exact (congrArg _ hfc).trans (toNat_ofNat_of_lt hf)
  · exact (congrArg _ hdc').trans (toNat_ofNat_of_lt hdc)
  · exact (congrArg _ hlc).trans (toNat_ofNat_of_lt hloop)
  · exact (congrArg _ hpl).trans (toNat_ofNat_of_lt hn)
  · subst hfd hk
    rw [if_neg (by simp), if_neg hne, if_pos (pow_mem_lengths h1 h8)] at hcheck
    rw [started_of_none hcheck]
    refine ⟨rfl, rfl, toNat_ofNat_of_lt hf, ?_, rfl⟩
    exact (congrArg _ (latched_pow h1 h8).1).trans (BitVec.toNat_ofNat _ _ |>.trans (Nat.mod_eq_of_lt (by omega)))
  · rw [if_pos hne] at hcheck
    rw [started_of_some hcheck]
    exact ⟨rfl, rfl⟩

/-! ## EncodeAll up to BEGIN (R99) -/

/-- The palette RAM after the entries es were written from entry j on. -/
def Memory.writeTable (m : Memory) (j : Nat) (es : List Word) : Memory :=
  match es with
  | [] => m
  | e :: es => (m.writeEntry j e).writeTable (j + 1) es

/-- What the entries written from j on read as, and that those before j are as they were. -/
theorem Memory.readEntry_writeTable (m : Memory) (j : Nat) (es : List Word) :
    (∀ i < j, (m.writeTable j es).readEntry i = m.readEntry i) ∧
    (∀ (i : Nat) (h : i < es.length), (m.writeTable j es).readEntry (j + i) = some es[i]) := by
  induction es generalizing m j with
  | nil => exact ⟨fun _ _ => rfl, fun i h => absurd h (by simp)⟩
  | cons e es ih =>
    obtain ⟨hbefore, hentries⟩ := ih (m.writeEntry j e) (j + 1)
    refine ⟨fun i hi => ?_, fun i h => ?_⟩
    · rw [writeTable, hbefore i (by omega), readEntry_writeEntry_ne e (by omega)]
    · cases i with
      | zero => exact (hbefore j (by omega)).trans (readEntry_writeEntry_self _ _ _)
      | succ i =>
        rw [show j + (i + 1) = j + 1 + i by omega]
        exact hentries i (by simpa using h)

theorem drives_writeTable {s : State} (j : Nat) (es : List Word) (hb : s.busy = false) (hj : j + es.length ≤ 256) :
    Drives es.length ((es.zipIdx j).map fun p => writeMove (.pal (Fin.ofNat 256 p.2)) p.1.toNat) s
      { s with palette := s.palette.writeTable j es } := by
  induction es generalizing s j with
  | nil => exact Drives.nil s
  | cons e es ih =>
    rw [List.length_cons] at hj
    have hreg : writeReg s (.pal (Fin.ofNat 256 j)) (BitVec.ofNat 32 e.toNat) =
        { s with palette := s.palette.writeEntry j e } := by
      simp [writeReg, Nat.mod_eq_of_lt (show j < 256 by omega)]
    have hwrite := drives_write (r := .pal (Fin.ofNat 256 j)) e.toNat hb (by simp)
    rw [hreg] at hwrite
    rw [List.zipIdx_cons, List.map_cons, List.length_cons, Nat.add_comm]
    exact hwrite.append (ih (j + 1) (by exact hb) (by omega))

/-- EncodeAll writes the palette's first 256 entries (R99, log 14). -/
theorem drives_paletteMoves {s : State} (palette : List Word) (hb : s.busy = false) :
    ∃ n, Drives n (paletteMoves palette) s { s with palette := s.palette.writeTable 0 (palette.take 256) } :=
  ⟨_, drives_writeTable 0 _ hb (by simp)⟩

/-- EncodeAll up to the end of BEGIN. -/
theorem drives_palette_begin {s : State} (palette : List Word) (f dc loop : Nat) (hb : s.busy = false)
    (hp : s.phase = .idle ∨ s.phase = .done) :
    ∃ n, Drives n (paletteMoves palette ++ beginMoves f dc loop palette.length) s
      (State.withCounts { s with palette := s.palette.writeTable 0 (palette.take 256) } f dc loop palette.length).started := by
  obtain ⟨n, hn⟩ := drives_paletteMoves palette hb
  exact ⟨n + 6, hn.append (drives_begin f dc loop palette.length (by exact hb) (by exact hp))⟩

/-- The checks of START on EncodeAll's operands (R190). -/
theorem startCheck_eq_beginError (s : State) {frames : List HostFrame} {delays : List Nat} (loop : Nat)
    (hf : frames.length < 2 ^ 32) (hd : delays.length < 2 ^ 32) (hn : (firstPalette frames).length < 2 ^ 32) :
    startCheck (s.withCounts frames.length delays.length loop (firstPalette frames).length) = beginError frames delays := by
  rw [startCheck_withCounts s loop hf hd hn]
  simp only [List.length_eq_zero_iff, beginError]

/-! ## EncodeAll after a failed BEGIN (R99) -/

theorem inCall_setFrameMoves (x y x' y' d : Nat) : ∀ m ∈ setFrameMoves x y x' y' d, Move.inCall m = true := by
  simp [setFrameMoves, writeMove, Move.inCall]

theorem inCall_checkedMoves (i : Instr) : ∀ m ∈ checkedMoves i, Move.inCall m = true := by
  simp [checkedMoves, commandMove, Move.inCall]

theorem inCall_frameMoves (compress : BitVec 4 → List Byte → List Byte) (f : HostFrame) (delay : Nat) :
    ∀ m ∈ frameMoves compress f delay, Move.inCall m = true := by
  intro m hm
  simp only [frameMoves, List.mem_append, List.mem_singleton] at hm
  obtain ((hm | hm) | rfl) | hm := hm
  · exact inCall_setFrameMoves _ _ _ _ _ m hm
  · exact inCall_checkedMoves _ m hm
  · rfl
  · exact inCall_checkedMoves _ m hm

/-- All moves of EncodeAll after BEGIN are the host's. -/
theorem inCall_streamMoves (compress : BitVec 4 → List Byte → List Byte) (frames : List HostFrame) (delays : List Nat) :
    ∀ m ∈ streamMoves compress frames delays, Move.inCall m = true := by
  intro m hm
  simp only [streamMoves, List.mem_append, List.mem_flatMap] at hm
  obtain (((hm | hm) | hm) | ⟨p, -, hm⟩) | hm := hm
  · cases frames with
    | nil => simp at hm
    | cons f l => exact inCall_setFrameMoves _ _ _ _ _ m hm
  · exact inCall_checkedMoves _ m hm
  · split at hm
    · exact inCall_checkedMoves _ m hm
    · simp at hm
  · exact inCall_frameMoves _ _ _ m hm
  · exact inCall_checkedMoves _ m hm

/-- Settles O44: BEGIN ends in ERROR, and the look at STATUS after it passes over the rest of the call. -/
theorem encodeAllStopsAfterFailedBegin : Obligations.EncodeAllStopsAfterFailedBegin := by
  intro s compress frames delays loopCount rest code hb hp hf hd hn hcode ha
  obtain ⟨n, hdrives⟩ := drives_palette_begin (firstPalette frames) frames.length delays.length
    (BitVec.ofInt 32 loopCount).toNat hb hp
  rw [started_of_some ((startCheck_eq_beginError _ _ hf hd hn).trans hcode)] at hdrives
  obtain ⟨reads, hsteps⟩ := hdrives.steps (rest := .checkError :: (streamMoves compress frames delays ++ .callEnd :: rest))
    (by simp [ha, encodeAllMoves])
  refine ⟨n + 1, _, steps_trans hsteps (steps_one (step_checkError rfl)), ?_⟩
  rw [checkError_stops rfl, skipCall_append (inCall_streamMoves compress frames delays)]
  exact ⟨rfl, rfl, rfl, rfl, rfl, rfl, rfl, rfl, List.getLast?_concat⟩

end Sys2Proof.Machine
end

section
/-! PROOF. What the commands do in full while the sink accepts their bytes (40_header.md, 41_loop_extension.md, 42_frame.md,
43_subblock.md, R192): the next state of each, with the bytes written out by the claims' own functions. -/

namespace Sys2Proof.Machine

open Claims

/-- A command whose record the sink accepts goes on to the steps after it (R66, R200). -/
theorem issue_emits {p : Phase} {rule : State → List CmdStep} {s : State} {bs : List Byte} {rest : List CmdStep}
    (hb : s.busy = false) (hp : s.phase = p) (he : p ≠ .error) (hrule : rule s.beginCommand = emits bs ++ rest)
    (hk : s.sink.accepts bs.length) : issue [p] (fun s => runSteps (rule s) s) s =
      runSteps rest (s.onward (s.out ++ bs) (s.sink.after bs.length)).beginCommand := by
  rw [issue_legal hb (by simp [hp]) (by rwa [hp]), hrule, runSteps_emits (s := s.beginCommand) hk]
  rfl

/-! ## TRAILER, LOOPEXT, FRAME -/

/-- TRAILER's byte and phase (R192). -/
theorem exec_trailer_accepted {s : State} (hb : s.busy = false) (hp : s.phase = .trl) (hk : s.sink.accepts 1) :
    exec .trailer s = .next { s with out := s.out ++ [0x3B], sink := s.sink.after 1, phase := .done } := by
  have h := issue_emits (rule := fun _ => trailerSteps) (bs := [trailerByte]) hb hp (by simp) rfl hk
  refine h.trans ?_
  simp [runSteps, State.endCommand, State.setPhase, State.beginCommand, State.onward, trailerByte, hb]

/-- The 19 bytes of LOOPEXT (R90, R140). -/
theorem exec_loopext_accepted {s : State} (hb : s.busy = false) (hp : s.phase = .loop) (hk : s.sink.accepts 19) :
    exec .loopext s = .next { s with
      out := s.out ++ loopStream s.loopL, sink := s.sink.after 19, phase := .frm } := by
  have h := issue_emits (rule := loopextSteps) (bs := loopStream s.loopL) hb hp (by simp) rfl hk
  refine h.trans ?_
  simp [runSteps, State.endCommand, State.setPhase, State.beginCommand, State.onward, loopStream, hb]

/-- A byte of a half of a word is a byte of the word. -/
theorem extract_byte_of_half (v : Word) (a : Nat) {b : Nat} (hb : b ≤ 8) :
    (v.extractLsb' a 16).extractLsb' b 8 = v.extractLsb' (a + b) 8 := by
  apply BitVec.eq_of_getLsbD_eq
  intro i hi
  simp [hi, show b + i < 16 by omega, Nat.add_assoc]

theorem lo8_lowHalf (v : Word) : lo8 (lowHalf v) = v.extractLsb' 0 8 := extract_byte_of_half v 0 (by omega)
theorem hi8_lowHalf (v : Word) : hi8 (lowHalf v) = v.extractLsb' 8 8 := extract_byte_of_half v 0 (by omega)
theorem lo8_highHalf (v : Word) : lo8 (highHalf v) = v.extractLsb' 16 8 := extract_byte_of_half v 16 (by omega)
theorem hi8_highHalf (v : Word) : hi8 (highHalf v) = v.extractLsb' 24 8 := extract_byte_of_half v 16 (by omega)

/-- A difference of two 16-bit fields, on numbers (R153). -/
theorem sub_eq_sizeField (lo hi : Half) : hi - lo = sizeField lo.toNat hi.toNat := by
  apply BitVec.eq_of_toNat_eq
  have hlo := lo.isLt
  simp only [sizeField, BitVec.toNat_sub, BitVec.toNat_ofNat]
  omega

theorem frameWidth_eq (s : State) :
    s.frameWidth = sizeField (s.frameMin.toNat % 2 ^ 16) (s.frameMax.toNat % 2 ^ 16) := by
  rw [State.frameWidth, sub_eq_sizeField, State.minX, State.maxX, lowHalf_toNat, lowHalf_toNat]

theorem frameHeight_eq (s : State) :
    s.frameHeight = sizeField (s.frameMin.toNat / 2 ^ 16) (s.frameMax.toNat / 2 ^ 16) := by
  rw [State.frameHeight, sub_eq_sizeField, State.minY, State.maxY, highHalf_toNat, highHalf_toNat]

/-- The bytes FRAME emits are those of R91 to R93. -/
theorem frameBytes_eq (s : State) : s.frameBytes = frameStream s := by
  simp only [State.frameBytes, graphicControl, imageDescriptor, le16, frameStream, State.minX, State.minY,
    lo8_lowHalf, hi8_lowHalf, lo8_highHalf, hi8_highHalf, frameWidth_eq, frameHeight_eq, BitVec.ofNat_toNat]
  rfl

/-- FRAME (R150). -/
theorem exec_frame_accepted {s : State} (hb : s.busy = false) (hp : s.phase = .frm) (hk : s.sink.accepts 19) :
    exec .frame s = .next { s with
      out := s.out ++ frameStream s, sink := s.sink.after 19, sbCnt := 0, phase := .data } := by
  have h := issue_emits (rule := frameSteps) (bs := s.frameBytes) hb hp (by simp) rfl hk
  refine h.trans ?_
  rw [frameBytes_eq]
  simp [runSteps, State.endCommand, State.setPhase, State.clearFill, State.beginCommand, State.onward, frameStream, hb]

/-! ## HEADER -/

/-- The flags after the scans of the entries es, the first of which is entry j (R124). -/
def State.scanTable (s : State) (j : Nat) (es : List Word) : State :=
  match es with
  | [] => s
  | e :: es => (s.scanEntry j e).scanTable (j + 1) es

/-- HEADER's steps at written entries: their bytes, and their scans. -/
theorem runSteps_table {m : Memory} {j : Nat} {es : List Word} {rest : List CmdStep} {s : State}
    (hes : ∀ (i : Nat) (h : i < es.length), m.readEntry (j + i) = some es[i]) (hk : s.sink.accepts (3 * es.length)) :
    runSteps ((List.range' j es.length).flatMap (entrySteps m) ++ rest) s =
      runSteps rest ((s.onward (s.out ++ es.flatMap colorTriplet) (s.sink.after (3 * es.length))).scanTable j es) := by
  induction es generalizing j s with
  | nil => simp [State.scanTable, State.onward]
  | cons e es ih =>
    have hk' : s.sink.accepts (3 + 3 * es.length) := hk.mono (by simp; omega)
    have hfirst : m.readEntry j = some e := hes 0 (by simp)
    have hrest : ∀ (i : Nat) (h : i < es.length), m.readEntry (j + 1 + i) = some es[i] := fun i h => by
      rw [Nat.add_assoc, Nat.add_comm 1 i]
      exact hes (i + 1) (by simpa using h)
    rw [List.length_cons, List.range'_succ, List.flatMap_cons, List.append_assoc,
      runSteps_entry hfirst (hk'.mono (by omega)),
      ih (s := (s.onward (s.out ++ colorTriplet e) (s.sink.after 3)).scanEntry j e) hrest hk'.after]
    simp [State.scanTable, State.onward, State.scanEntry, Nat.mul_add, Nat.add_comm]

/-- The flags after the scans of a table, as they stand before it (R124): the first non-opaque entry sets TFLAG and TIDX,
a second one TMULTI. -/
theorem scanTable_eq (s : State) (j : Nat) (es : List Word) : s.scanTable j es = { s with
    tflag := s.tflag || es.any translucent
    tidx := if s.tflag = false ∧ es.any translucent then BitVec.ofNat 8 (j + es.findIdx translucent) else s.tidx
    tmulti := s.tmulti || decide (2 ≤ s.tflag.toNat + es.countP translucent) } := by
  induction es generalizing s j with
  | nil =>
    have hone : ¬ 2 ≤ s.tflag.toNat := by
      have := s.tflag.toNat_le
      omega
    simp [State.scanTable, hone]
  | cons e es ih =>
    have hopaque : nonOpaque e = translucent e := rfl
    have htwo : ∀ n, 2 ≤ 1 + (1 + n) := fun n => by omega
    rw [State.scanTable, ih]
    cases hf : s.tflag <;> cases he : translucent e <;>
      simp [State.scanEntry, hopaque, he, hf, htwo, List.findIdx_cons, Nat.add_comm, Nat.add_assoc]

/-- The flags that HEADER latches, when it starts with those of START (R124, R127). -/
theorem scanTable_fresh {s : State} {es : List Word} (hf : s.tflag = false) (hi : s.tidx = 0) (hm : s.tmulti = false) :
    s.scanTable 0 es = { s with
      tflag := es.any translucent
      tidx := firstTranslucent es
      tmulti := decide (2 ≤ es.countP translucent) } := by
  simp [scanTable_eq, hf, hi, hm, firstTranslucent]

/-- The packed byte of the screen descriptor as a sum (R88). -/
theorem lsdPacked_eq {palK : BitVec 4} (h1 : 1 ≤ palK.toNat) (h8 : palK.toNat ≤ 8) :
    lsdPacked palK = BitVec.ofNat 8 (0xF0 + (palK.toNat - 1)) := by
  revert palK
  decide

/-- The bytes of HEADER before and in its table (R86 to R89). -/
theorem headerBytes_append_table {s : State} {k : Nat} (hk : s.palK.toNat = k) (h1 : 1 ≤ k) (h8 : k ≤ 8) (es : List Word) :
    s.headerBytes ++ es.flatMap colorTriplet = headerStream s.frameMax k es := by
  subst hk
  simp only [State.headerBytes, screenDescriptor, le16, State.maxX, State.maxY, lo8_lowHalf, hi8_lowHalf, lo8_highHalf,
    hi8_highHalf, lsdPacked_eq h1 h8]
  rfl

/-- HEADER (R120 to R125). -/
theorem exec_header_accepted {s : State} {k : Nat} {es : List Word} (hb : s.busy = false) (hp : s.phase = .hdr)
    (h1 : 1 ≤ k) (h8 : k ≤ 8) (hk : s.palK.toNat = k) (hlen : es.length = 2 ^ k)
    (hes : ∀ (i : Nat) (h : i < es.length), s.palette.readEntry i = some es[i]) (hf : s.tflag = false) (hi : s.tidx = 0)
    (hm : s.tmulti = false) (hacc : s.sink.accepts (13 + 3 * 2 ^ k)) :
    exec .header s = .next { s with
      out := s.out ++ headerStream s.frameMax k es
      sink := s.sink.after (13 + 3 * 2 ^ k)
      tflag := es.any translucent
      tidx := firstTranslucent es
      tmulti := decide (2 ≤ es.countP translucent)
      phase := if 1 < s.fcL.toNat then .loop else .frm } := by
  have hacc : s.sink.accepts (s.headerBytes.length + 3 * es.length) := by rwa [hlen]
  have h := issue_emits (rule := headerSteps) (bs := s.headerBytes) hb hp (by simp) rfl (hacc.mono (by omega))
  refine h.trans ?_
  have hrange : List.range s.paletteLength = List.range' 0 es.length := by
    rw [State.paletteLength, hk, ← hlen, List.range_eq_range']
  have htable := runSteps_table (m := s.palette) (j := 0) (es := es) (rest := [.setPhase s.phaseAfterHeader])
    (s := (s.onward (s.out ++ s.headerBytes) (s.sink.after s.headerBytes.length)).beginCommand)
    (by simpa using hes) hacc.after
  rw [← hrange] at htable
  refine htable.trans ?_
  rw [scanTable_fresh (by exact hf) (by exact hi) (by exact hm)]
  have hbytes := headerBytes_append_table hk h1 h8 es
  have hlen13 : s.headerBytes.length = 13 := rfl
  simp [runSteps, State.endCommand, State.setPhase, State.beginCommand, State.onward, State.phaseAfterHeader, hb,
    ← hbytes, hlen, hlen13, BitVec.lt_def]

/-! ## PUSH and FRAME_END -/

/-- The chunker holds as many bytes as SB_CNT says (R32). -/
theorem held_length (s : State) : s.held.length = s.sbCnt.toNat := by
  have h := s.sbCnt.isLt
  simp only [State.held, List.length_take, Vector.length_toList]
  omega

/-- A buffered byte is held after the others (R170). -/
theorem held_bufferByte {s : State} (h : s.sbCnt.toNat ≤ 254) (b : Byte) : (s.bufferByte b).held = s.held ++ [b] := by
  have hcnt : (s.sbCnt + 1).toNat = s.sbCnt.toNat + 1 := by bv_omega
  have hlt : s.sbCnt.toNat < s.sbBuf.toList.length := by rw [Vector.length_toList]; omega
  rw [State.held, State.bufferByte_sbCnt, State.bufferByte_sbBuf, hcnt, Vector.toList_setIfInBounds, List.take_add_one,
    List.take_set, List.set_eq_of_length_le (by simp), List.getElem?_set_self hlt]
  rfl

/-- A PUSH in DATA buffers its byte and runs the steps of a full buffer, if it is one (R170, R171). -/
theorem exec_push_runs {s : State} {b : Byte} (hb : s.busy = false) (hp : s.phase = .data) : exec (.push b) s =
    runSteps (pushSteps (s.beginCommand.bufferByte b)) (s.beginCommand.bufferByte b) :=
  issue_legal (legal := [.data]) (run := fun s => runSteps (pushSteps (s.bufferByte b)) (s.bufferByte b)) hb
    (by simp [hp]) (by simp [hp])

/-- A PUSH that does not fill the buffer (R170). -/
theorem exec_push_held {s : State} {b : Byte} (hb : s.busy = false) (hp : s.phase = .data) (hc : s.sbCnt.toNat < 254) :
    exec (.push b) s = .next (s.bufferByte b) := by
  have hne : (s.beginCommand.bufferByte b).sbCnt ≠ 255 := by
    rw [State.bufferByte_sbCnt, State.beginCommand_sbCnt]
    bv_omega
  rw [exec_push_runs hb hp, pushSteps, if_neg hne, runSteps]
  exact congrArg (fun u => Host.Outcome.next (State.bufferByte u b)) (State.endCommand_beginCommand hb)

/-- The 256 bytes of the block that a PUSH fills (R171). -/
theorem fullBlock_eq {s : State} (hc : s.sbCnt.toNat = 254) (b : Byte) : fullBlock s b = 0xFF :: (s.held ++ [b]) := by
  rw [fullBlock, State.held, hc]

/-- A PUSH that fills the buffer (R171). -/
theorem exec_push_full {s : State} {b : Byte} (hb : s.busy = false) (hp : s.phase = .data) (hc : s.sbCnt.toNat = 254)
    (hk : s.sink.accepts 256) :
    exec (.push b) s = .next { s with
      out := s.out ++ fullBlock s b, sink := s.sink.after 256
      sbBuf := s.sbBuf.setIfInBounds 254 b, sbCnt := 0 } := by
  have hcnt : s.sbCnt + 1 = 255 := by bv_omega
  have hfull : (s.beginCommand.bufferByte b).sbCnt = 255 := hcnt
  have hheld : (s.beginCommand.bufferByte b).held = s.held ++ [b] :=
    held_bufferByte (s := s.beginCommand) (by rw [State.beginCommand_sbCnt]; omega) b
  have hblock : fullBlock s b = (s.beginCommand.bufferByte b).sbCnt :: (s.beginCommand.bufferByte b).held := by
    rw [fullBlock_eq hc, hfull, hheld]
  have hlen : (fullBlock s b).length = 256 := by
    rw [fullBlock_eq hc]
    simp [held_length, hc]
  rw [exec_push_runs hb hp, pushSteps, if_pos hfull, blockSteps_eq, ← hblock,
    runSteps_emits (s := s.beginCommand.bufferByte b) (by rwa [hlen]), hlen]
  simp [runSteps, State.endCommand, State.clearFill, State.beginCommand, State.bufferByte, hb, hc]

/-- The frame FRAME_END counts, on numbers (R157). -/
theorem countFrame_eq {s : State} (hd : s.framesDone.toNat < s.fcL.toNat) : s.countFrame = { s with
    framesDone := BitVec.ofNat 32 (s.framesDone.toNat + 1)
    phase := if s.framesDone.toNat + 1 < s.fcL.toNat then .frm else .trl } := by
  have hcount : BitVec.ofNat 32 (s.framesDone.toNat + 1) = s.framesDone + 1 := by bv_omega
  have hless : s.framesDone + 1 < s.fcL ↔ s.framesDone.toNat + 1 < s.fcL.toNat := by bv_omega
  simp only [State.countFrame, hcount, hless]

/-- The end of FRAME_END: the terminator, and the frame is counted (R156). -/
theorem runSteps_terminator {s : State} (hd : s.framesDone.toNat < s.fcL.toNat) (hk : s.sink.answer = .accept) :
    runSteps [.emit blockTerminator, .endFrame] s = .next { s with
      busy := false, out := s.out ++ [0x00], sink := s.sink.after 1
      framesDone := BitVec.ofNat 32 (s.framesDone.toNat + 1)
      phase := if s.framesDone.toNat + 1 < s.fcL.toNat then .frm else .trl } := by
  simp only [runSteps, hk]
  rw [countFrame_eq (by exact hd)]
  simp [State.endCommand, State.append, State.answered, Sink.next_eq_after, blockTerminator]

/-- FRAME_END (R156, R157, R172). -/
theorem exec_frameEnd_accepted {s : State} (hb : s.busy = false) (hp : s.phase = .data)
    (hd : s.framesDone.toNat < s.fcL.toNat) (hk : s.sink.accepts (flushStream s).length) :
    exec .frameEnd s = .next { s with
      out := s.out ++ flushStream s, sink := s.sink.after (flushStream s).length, sbCnt := 0
      framesDone := BitVec.ofNat 32 (s.framesDone.toNat + 1)
      phase := if s.framesDone.toNat + 1 < s.fcL.toNat then .frm else .trl } := by
  have hsteps := frameEndSteps_eq s.beginCommand
  have hheld : s.beginCommand.held = s.held := rfl
  rw [State.beginCommand_sbCnt, hheld] at hsteps
  by_cases h0 : s.sbCnt = 0
  · have hflush : flushStream s = [0x00] := by rw [flushStream, if_pos h0]; rfl
    rw [if_pos h0, if_pos h0] at hsteps
    rw [hflush] at hk ⊢
    have h := issue_emits (rule := frameEndSteps) hb hp (by simp) hsteps (hk.mono (by simp))
    refine h.trans ((runSteps_terminator (by exact hd) (by simpa [State.onward] using hk.answer)).trans ?_)
    simp [State.onward, State.beginCommand, hb, ← h0]
  · have hflush : flushStream s = (s.sbCnt :: s.held) ++ [0x00] := by rw [flushStream, if_neg h0]; rfl
    rw [if_neg h0, if_neg h0] at hsteps
    rw [hflush, List.length_append] at hk ⊢
    have h := issue_emits (rule := frameEndSteps) hb hp (by simp) hsteps (hk.mono (by exact Nat.le_add_right _ _))
    refine h.trans ((runSteps_terminator (s := State.clearFill _) (by exact hd) (by exact hk.after.answer)).trans ?_)
    simp [State.onward, State.clearFill, State.beginCommand, hb]

end Sys2Proof.Machine
end

section
/-! PROOF. A frame's image data (30_encoding.md R94, 43_subblock.md R173): what PUSH and FRAME_END emit together is the
pushed bytes in sub-blocks of 255. -/

namespace Sys2Proof.Machine

open Claims

/-! ## Sub-blocks -/

/-- The bound on the number of sub-blocks does not matter once it is as large as the number of bytes. -/
theorem subBlocks_of_length_le {m n : Nat} {bs : List Byte} (hm : bs.length ≤ m) (hn : bs.length ≤ n) :
    subBlocks m bs = subBlocks n bs := by
  induction m generalizing n bs with
  | zero =>
    obtain rfl : bs = [] := List.eq_nil_of_length_eq_zero (Nat.le_zero.1 hm)
    cases n <;> rfl
  | succ m ih =>
    cases n with
    | zero =>
      obtain rfl : bs = [] := List.eq_nil_of_length_eq_zero (Nat.le_zero.1 hn)
      rfl
    | succ n =>
      have htail : subBlocks m (bs.drop 255) = subBlocks n (bs.drop 255) :=
        ih (by rw [List.length_drop]; omega) (by rw [List.length_drop]; omega)
      rw [subBlocks, subBlocks, htail]

/-- The first sub-block of some bytes, and the rest. -/
theorem imageData_of_ne_nil {bs : List Byte} (h : bs ≠ []) :
    imageData bs = BitVec.ofNat 8 (min bs.length 255) :: (bs.take 255 ++ imageData (bs.drop 255)) := by
  obtain ⟨n, hn⟩ := Nat.exists_eq_succ_of_ne_zero (mt List.eq_nil_of_length_eq_zero h)
  have htail : subBlocks n (bs.drop 255) = subBlocks (bs.drop 255).length (bs.drop 255) :=
    subBlocks_of_length_le (by rw [List.length_drop]; omega) (Nat.le_refl _)
  rw [imageData, hn, subBlocks, if_neg h, htail, ← hn, imageData]
  simp

/-- 255 bytes leave as a full sub-block (R171). -/
theorem imageData_full_append {xs : List Byte} (h : xs.length = 255) (ys : List Byte) :
    imageData (xs ++ ys) = 0xFF :: (xs ++ imageData ys) := by
  have hne : xs ++ ys ≠ [] := by
    rintro hnil
    simp [(List.append_eq_nil_iff.1 hnil).1] at h
  rw [imageData_of_ne_nil hne, List.take_left' h, List.drop_left' h, List.length_append, h, Nat.min_eq_right (by omega)]
  rfl

/-- What FRAME_END emits is the image data of the held bytes (R172). -/
theorem flushStream_eq (s : State) : flushStream s = imageData s.held := by
  have hlen := held_length s
  by_cases h0 : s.sbCnt = 0
  · have hnil : s.held = [] := List.eq_nil_of_length_eq_zero (by rw [hlen, h0]; rfl)
    rw [flushStream, if_pos h0, hnil]
    rfl
  · have hne : s.held ≠ [] := by
      intro hnil
      rw [hnil] at hlen
      exact h0 (BitVec.eq_of_toNat_eq hlen.symm)
    have hle : s.held.length ≤ 255 := by
      have := s.sbCnt.isLt
      omega
    rw [imageData_of_ne_nil hne, List.take_of_length_le hle, List.drop_of_length_le hle, Nat.min_eq_left hle, hlen,
      BitVec.ofNat_toNat, BitVec.setWidth_eq, flushStream, if_neg h0]
    rfl

/-! ## PUSH -/

/-- The bytes a PUSH of b emits: none, or the block it fills (R170, R171). -/
def pushStream (s : State) (b : Byte) : List Byte := if s.sbCnt.toNat = 254 then fullBlock s b else []

/-- The state after a PUSH whose bytes the sink accepts. -/
def State.pushed (s : State) (b : Byte) : State :=
  { s with
    out := s.out ++ pushStream s b
    sink := s.sink.after (pushStream s b).length
    sbBuf := s.sbBuf.setIfInBounds s.sbCnt.toNat b
    sbCnt := if s.sbCnt.toNat = 254 then 0 else s.sbCnt + 1 }

/-- PUSH (R170, R171). -/
theorem exec_push_accepted {s : State} {b : Byte} (hb : s.busy = false) (hp : s.phase = .data)
    (hc : s.sbCnt.toNat ≤ 254) (hk : s.sink.accepts (pushStream s b).length) :
    exec (.push b) s = .next (s.pushed b) := by
  by_cases hfull : s.sbCnt.toNat = 254
  · have hlen : (fullBlock s b).length = 256 := by
      rw [fullBlock_eq hfull]
      simp [held_length, hfull]
    rw [pushStream, if_pos hfull, hlen] at hk
    rw [exec_push_full hb hp hfull hk]
    simp only [State.pushed, pushStream, hfull, hlen, if_true]
  · rw [exec_push_held hb hp (by omega)]
    simp [State.pushed, pushStream, hfull, State.bufferByte]

theorem pushed_sbCnt_le {s : State} (hc : s.sbCnt.toNat ≤ 254) (b : Byte) : (s.pushed b).sbCnt.toNat ≤ 254 := by
  simp only [State.pushed]
  split
  · simp
  · bv_omega

/-- A PUSH takes nothing from the image data and adds nothing: what it emits and what is then held and pushed is the image
data of what was held, the byte, and what is pushed after it. -/
theorem pushStream_append_imageData {s : State} (hc : s.sbCnt.toNat ≤ 254) (b : Byte) (bs : List Byte) :
    pushStream s b ++ imageData ((s.pushed b).held ++ bs) = imageData (s.held ++ b :: bs) := by
  by_cases hfull : s.sbCnt.toNat = 254
  · have hnil : (s.pushed b).held = [] := by simp [State.held, State.pushed, hfull]
    have hlen : (s.held ++ [b]).length = 255 := by simp [held_length, hfull]
    rw [hnil, pushStream, if_pos hfull, fullBlock_eq hfull, List.append_cons s.held b bs, imageData_full_append hlen]
    rfl
  · have hheld : (s.pushed b).held = s.held ++ [b] := by
      rw [← held_bufferByte hc]
      simp [State.held, State.pushed, hfull, State.bufferByte]
    rw [hheld, pushStream, if_neg hfull, List.append_cons s.held b bs]
    rfl

end Sys2Proof.Machine
end

section
/-! PROOF. EncodeAll with legal operands and a sink that accepts (30_encoding.md R99, R96): the host's moves take the block
through one whole stream. -/

namespace Sys2Proof.Machine

open Claims

/-! ## A sink that accepts for ever -/

theorem accepts_of_accepting {k : Sink} (h : k = { script := [], rest := .accept }) (n : Nat) : k.accepts n := by
  subst h
  intro j _
  simp [Sink.after, Sink.answer]

theorem after_of_accepting {k : Sink} (h : k = { script := [], rest := .accept }) (n : Nat) : k.after n = k := by
  subst h
  simp [Sink.after]

/-! ## The commands of EncodeAll, each with its WAIT and its look at STATUS -/

theorem drives_trailer {s : State} (hb : s.busy = false) (hp : s.phase = .trl)
    (hk : s.sink = { script := [], rest := .accept }) :
    Drives 3 (checkedMoves .trailer) s { s with out := s.out ++ [0x3B], phase := .done } := by
  have h := exec_trailer_accepted hb hp (accepts_of_accepting hk _)
  rw [after_of_accepting hk] at h
  exact drives_checkedMoves (by exact hb) (by simp) h

theorem drives_loopext {s : State} (hb : s.busy = false) (hp : s.phase = .loop)
    (hk : s.sink = { script := [], rest := .accept }) :
    Drives 3 (checkedMoves .loopext) s { s with out := s.out ++ loopStream s.loopL, phase := .frm } := by
  have h := exec_loopext_accepted hb hp (accepts_of_accepting hk _)
  rw [after_of_accepting hk] at h
  exact drives_checkedMoves (by exact hb) (by simp) h

theorem drives_frame {s : State} (hb : s.busy = false) (hp : s.phase = .frm)
    (hk : s.sink = { script := [], rest := .accept }) :
    Drives 3 (checkedMoves .frame) s { s with out := s.out ++ frameStream s, sbCnt := 0, phase := .data } := by
  have h := exec_frame_accepted hb hp (accepts_of_accepting hk _)
  rw [after_of_accepting hk] at h
  exact drives_checkedMoves (by exact hb) (by simp) h

theorem drives_frameEnd {s : State} (hb : s.busy = false) (hp : s.phase = .data)
    (hd : s.framesDone.toNat < s.fcL.toNat) (hk : s.sink = { script := [], rest := .accept }) :
    Drives 3 (checkedMoves .frameEnd) s { s with
      out := s.out ++ flushStream s, sbCnt := 0
      framesDone := BitVec.ofNat 32 (s.framesDone.toNat + 1)
      phase := if s.framesDone.toNat + 1 < s.fcL.toNat then .frm else .trl } := by
  have h := exec_frameEnd_accepted hb hp hd (accepts_of_accepting hk _)
  rw [after_of_accepting hk] at h
  exact drives_checkedMoves (by exact hb) (by dsimp only; split <;> simp) h

theorem drives_header {s : State} {k : Nat} {es : List Word} (hb : s.busy = false) (hp : s.phase = .hdr)
    (h1 : 1 ≤ k) (h8 : k ≤ 8) (hpal : s.palK.toNat = k) (hlen : es.length = 2 ^ k)
    (hes : ∀ (i : Nat) (h : i < es.length), s.palette.readEntry i = some es[i]) (hf : s.tflag = false) (hi : s.tidx = 0)
    (hm : s.tmulti = false) (hk : s.sink = { script := [], rest := .accept }) :
    Drives 3 (checkedMoves .header) s { s with
      out := s.out ++ headerStream s.frameMax k es
      tflag := es.any translucent
      tidx := firstTranslucent es
      tmulti := decide (2 ≤ es.countP translucent)
      phase := if 1 < s.fcL.toNat then .loop else .frm } := by
  have h := exec_header_accepted hb hp h1 h8 hpal hlen hes hf hi hm (accepts_of_accepting hk _)
  rw [after_of_accepting hk] at h
  exact drives_checkedMoves (by exact hb) (by dsimp only; split <;> simp) h

/-! ## One frame -/

/-- The pushes of a frame's bytes: with the flush to come they leave as image data. -/
theorem drives_pushes {s : State} (bs : List Byte) (hb : s.busy = false) (hp : s.phase = .data)
    (hc : s.sbCnt.toNat ≤ 254) (hk : s.sink = { script := [], rest := .accept }) :
    ∃ n out buf cnt, Drives n (bs.flatMap fun b => checkedMoves (.push b)) s
        { s with out := out, sbBuf := buf, sbCnt := cnt } ∧
      out ++ flushStream { s with out := out, sbBuf := buf, sbCnt := cnt } = s.out ++ imageData (s.held ++ bs) := by
  induction bs generalizing s with
  | nil => exact ⟨0, s.out, s.sbBuf, s.sbCnt, Drives.nil s, by rw [List.append_nil, flushStream_eq]⟩
  | cons b bs ih =>
    have hpush : Drives 3 (checkedMoves (.push b)) s (s.pushed b) :=
      drives_checkedMoves hb (by simp [State.pushed, hp]) (exec_push_accepted hb hp hc (accepts_of_accepting hk _))
    have hsink : (s.pushed b).sink = s.sink := after_of_accepting hk _
    obtain ⟨n, out, buf, cnt, hdrives, hout⟩ := ih (s := s.pushed b) hb hp (pushed_sbCnt_le hc b) (hsink.trans hk)
    have hstate : ({ s.pushed b with out := out, sbBuf := buf, sbCnt := cnt } : State) =
        { s with out := out, sbBuf := buf, sbCnt := cnt } := by
      simp [State.pushed, after_of_accepting hk]
    rw [hstate] at hdrives hout
    refine ⟨3 + n, out, buf, cnt, hpush.append hdrives, ?_⟩
    rw [hout, ← pushStream_append_imageData hc, ← List.append_assoc]
    rfl

/-- SETFRAME with a frame's bounds stores the words of which EncodeAll's frame header and canvas are made (R39, R99). -/
theorem drives_setMoves {s : State} (f : HostFrame) (delay : Nat) (hb : s.busy = false) :
    ∃ lo hi wait, Drives 3 (f.setMoves delay) s (s.withFrame lo hi wait) ∧ (∀ l, canvas (f :: l) = hi) ∧
      ∀ compress, encodedFrame compress s f delay =
        frameStream (s.withFrame lo hi wait) ++ imageData (compress s.mcs f.indices) :=
  ⟨_, _, _, drives_setFrame _ _ _ _ _ hb, fun _ => rfl, fun _ => rfl⟩

/-- The host's moves for one frame write its frame header and its image data (R99, R96). -/
theorem drives_frameMoves {s : State} (compress : BitVec 4 → List Byte → List Byte) (f : HostFrame) (delay : Nat)
    (hb : s.busy = false) (hp : s.phase = .frm) (hd : s.framesDone.toNat < s.fcL.toNat)
    (hk : s.sink = { script := [], rest := .accept }) :
    ∃ n lo hi wait buf, Drives n (frameMoves compress f delay) s { s with
      frameMin := lo, frameMax := hi, delay := wait, sbBuf := buf, sbCnt := 0
      out := s.out ++ encodedFrame compress s f delay
      framesDone := BitVec.ofNat 32 (s.framesDone.toNat + 1)
      phase := if s.framesDone.toNat + 1 < s.fcL.toNat then .frm else .trl } := by
  obtain ⟨lo, hi, wait, hset, -, hencoded⟩ := drives_setMoves f delay hb
  have hframe := drives_frame (s := s.withFrame lo hi wait) hb hp hk
  obtain ⟨n, out, buf, cnt, hpush, hout⟩ := drives_pushes (s := { s.withFrame lo hi wait with
      out := s.out ++ frameStream (s.withFrame lo hi wait), sbCnt := 0, phase := .data })
    (compress s.mcs f.indices) hb rfl (by simp) hk
  have hend := drives_frameEnd (s := { s.withFrame lo hi wait with
      out := out, sbBuf := buf, sbCnt := cnt, phase := .data }) hb rfl hd hk
  have hbytes : out ++ flushStream { s.withFrame lo hi wait with
      out := out, sbBuf := buf, sbCnt := cnt, phase := .data } = s.out ++ encodedFrame compress s f delay := by
    refine hout.trans ?_
    rw [hencoded, ← List.append_assoc]
    rfl
  rw [hbytes] at hend
  exact ⟨_, lo, hi, wait, buf, ((hset.append hframe).append (drives_compressed hpush)).append hend⟩

/-- The host's moves for all frames to come write them in order (R99, R96). -/
theorem drives_frames {s : State} (compress : BitVec 4 → List Byte → List Byte) (l : List (HostFrame × Nat))
    (hb : s.busy = false) (hp : s.phase = if l = [] then .trl else .frm)
    (hd : s.framesDone.toNat + l.length = s.fcL.toNat) (hk : s.sink = { script := [], rest := .accept }) :
    ∃ n lo hi wait buf cnt, Drives n (l.flatMap fun p => frameMoves compress p.1 p.2) s { s with
      frameMin := lo, frameMax := hi, delay := wait, sbBuf := buf, sbCnt := cnt
      out := s.out ++ l.flatMap fun p => encodedFrame compress s p.1 p.2
      framesDone := s.fcL, phase := .trl } := by
  induction l generalizing s with
  | nil =>
    have hdone : s.fcL = s.framesDone := (BitVec.eq_of_toNat_eq hd).symm
    have hphase : Phase.trl = s.phase := hp.symm
    refine ⟨0, s.frameMin, s.frameMax, s.delay, s.sbBuf, s.sbCnt, ?_⟩
    simp only [List.flatMap_nil, List.append_nil, hphase]
    nth_rw 2 [hdone]
    exact Drives.nil s
  | cons p l ih =>
    rw [List.length_cons] at hd
    have hcount : (BitVec.ofNat 32 (s.framesDone.toNat + 1)).toNat = s.framesDone.toNat + 1 :=
      toNat_ofNat_of_lt (by have := s.fcL.isLt; omega)
    have hphase : (if s.framesDone.toNat + 1 < s.fcL.toNat then Phase.frm else .trl) = if l = [] then .trl else .frm := by
      cases l with
      | nil => rw [if_neg (by rw [List.length_nil] at hd; omega), if_pos rfl]
      | cons q l => rw [if_pos (by rw [List.length_cons] at hd; omega), if_neg (by simp)]
    obtain ⟨m, lo₁, hi₁, wait₁, buf₁, hfirst⟩ := drives_frameMoves compress p.1 p.2 hb hp (by omega) hk
    obtain ⟨n, lo, hi, wait, buf, cnt, hrest⟩ := ih (s := { s with
      frameMin := lo₁, frameMax := hi₁, delay := wait₁, sbBuf := buf₁, sbCnt := 0
      out := s.out ++ encodedFrame compress s p.1 p.2
      framesDone := BitVec.ofNat 32 (s.framesDone.toNat + 1)
      phase := if s.framesDone.toNat + 1 < s.fcL.toNat then .frm else .trl }) hb hphase
      (by dsimp only; rw [hcount]; exact (Nat.succ_add_eq_add_succ _ _).trans hd) hk
    refine ⟨m + n, lo, hi, wait, buf, cnt, ?_⟩
    rw [List.flatMap_cons, List.flatMap_cons, ← List.append_assoc]
    exact hfirst.append hrest

/-! ## The whole stream -/

/-- LOOPEXT for several frames, nothing for one (R99, R125). -/
theorem drives_loopMoves {s : State} {many : Prop} [Decidable many] (hb : s.busy = false)
    (hp : s.phase = if many then .loop else .frm) (hk : s.sink = { script := [], rest := .accept }) :
    ∃ n, Drives n (if many then checkedMoves .loopext else []) s
      { s with out := s.out ++ (if many then loopStream s.loopL else []), phase := .frm } := by
  split
  · rename_i hmany
    rw [if_pos hmany] at hp
    exact ⟨3, drives_loopext hb hp hk⟩
  · rename_i hone
    rw [if_neg hone] at hp
    refine ⟨0, ?_⟩
    rw [List.append_nil, ← hp]
    exact Drives.nil s

/-- A stream that START has just opened for the palette es of 2^k entries and m frames (R190). -/
structure Opened (s : State) (k m : Nat) (es : List Word) : Prop where
  busy : s.busy = false
  phase : s.phase = .hdr
  sink : s.sink = { script := [], rest := .accept }
  frames : s.fcL.toNat = m
  done : s.framesDone = 0
  palK : s.palK.toNat = k
  tflag : s.tflag = false
  tidx : s.tidx = 0
  tmulti : s.tmulti = false
  palette : ∀ (i : Nat) (h : i < es.length), s.palette.readEntry i = some es[i]

theorem Opened.phase_ne_error {s : State} {k m : Nat} {es : List Word} (hs : Opened s k m es) : s.phase ≠ .error := by
  simp [hs.phase]

/-- The state with frame 0's words stored and the header and, for several frames, the loop extension in the output (R99). -/
def State.withHead (s : State) (lo hi : Word) (wait : Half) (k m : Nat) (es : List Word) : State :=
  { s.withFrame lo hi wait with
    out := s.out ++ headerStream hi k es ++ (if 1 < m then loopStream s.loopL else [])
    tflag := es.any translucent
    tidx := firstTranslucent es
    tmulti := decide (2 ≤ es.countP translucent)
    phase := .frm }

theorem drives_streamHead {s : State} {k m : Nat} {es : List Word} (f : HostFrame) (delay : Nat) (h1 : 1 ≤ k) (h8 : k ≤ 8)
    (hlen : es.length = 2 ^ k) (hs : Opened s k m es) :
    ∃ n lo hi wait, (∀ l, canvas (f :: l) = hi) ∧
      Drives n (f.setMoves delay ++ checkedMoves .header ++ (if 1 < m then checkedMoves .loopext else [])) s
        (s.withHead lo hi wait k m es) := by
  obtain ⟨lo, hi, wait, hset, hcanvas, -⟩ := drives_setMoves f delay hs.busy
  have hheader := drives_header (s := s.withFrame lo hi wait) hs.busy hs.phase h1 h8 hs.palK hlen hs.palette hs.tflag
    hs.tidx hs.tmulti hs.sink
  have hmany : (s.withFrame lo hi wait).fcL.toNat = m := hs.frames
  rw [hmany] at hheader
  obtain ⟨n, hloop⟩ := drives_loopMoves (many := 1 < m) (s := { s.withFrame lo hi wait with
      out := s.out ++ headerStream hi k es
      tflag := es.any translucent
      tidx := firstTranslucent es
      tmulti := decide (2 ≤ es.countP translucent)
      phase := if 1 < m then .loop else .frm }) hs.busy rfl hs.sink
  exact ⟨_, lo, hi, wait, hcanvas, (hset.append hheader).append hloop⟩

/-- EncodeAll's moves after BEGIN write the whole stream (R99, R96). -/
theorem drives_streamMoves {s : State} {k : Nat} (compress : BitVec 4 → List Byte → List Byte) {frames : List HostFrame}
    {delays : List Nat} (h1 : 1 ≤ k) (h8 : k ≤ 8) (hlen : (firstPalette frames).length = 2 ^ k)
    (hdelays : frames.length = delays.length) (hs : Opened s k frames.length (firstPalette frames)) :
    ∃ n t, Drives n (streamMoves compress frames delays) s t ∧ t.phase = .done ∧ t.err = s.err ∧ t.busy = false ∧
      t.fcL = s.fcL ∧ t.framesDone = s.fcL ∧ t.loopL = s.loopL ∧ t.mcs = s.mcs ∧
      t.tflag = (firstPalette frames).any translucent ∧ t.tidx = firstTranslucent (firstPalette frames) ∧
      t.out = s.out ++ headerStream (canvas frames) k (firstPalette frames)
        ++ (if 1 < frames.length then loopStream t.loopL else [])
        ++ (frames.zip delays).flatMap (fun p => encodedFrame compress t p.1 p.2) ++ [0x3B] := by
  cases frames with
  | nil => exact absurd hlen.symm (Nat.two_pow_pos k).ne'
  | cons f l =>
    have hzip : ((f :: l).zip delays).length = (f :: l).length := by rw [List.length_zip, ← hdelays, Nat.min_self]
    have hne : (f :: l).zip delays ≠ [] := List.ne_nil_of_length_pos (by rw [hzip]; exact Nat.succ_pos _)
    have hcount : s.framesDone.toNat + ((f :: l).zip delays).length = s.fcL.toNat := by
      rw [hs.done, hzip, hs.frames]
      exact Nat.zero_add _
    obtain ⟨m, lo₀, hi₀, wait₀, hcanvas, hhead⟩ := drives_streamHead f (delays.headD 0) h1 h8 hlen hs
    rw [hcanvas l]
    obtain ⟨n, lo, hi, wait, buf, cnt, hframes⟩ := drives_frames
      (s := s.withHead lo₀ hi₀ wait₀ k (f :: l).length (firstPalette (f :: l))) compress ((f :: l).zip delays)
      hs.busy (if_neg hne).symm hcount hs.sink
    have hall := hhead.append hframes
    refine ⟨_, _, hall.append (drives_trailer (by exact hs.busy) (by exact rfl) (by exact hs.sink)), ?_⟩
    exact ⟨rfl, rfl, hs.busy, rfl, rfl, rfl, rfl, rfl, rfl, rfl⟩

/-! ## EncodeAll -/

/-- START's palette and counts as EncodeAll writes them, once its checks have passed (R99, R190). -/
theorem opened_openStream {s : State} {k m loop : Nat} {es : List Word} (hb : s.busy = false)
    (hk : s.sink = { script := [], rest := .accept }) (h1 : 1 ≤ k) (h8 : k ≤ 8) (hm : m < 2 ^ 32) (hlen : es.length = 2 ^ k) :
    Opened (State.withCounts { s with palette := s.palette.writeTable 0 (es.take 256) } m m loop es.length).openStream
      k m es where
  busy := hb
  phase := rfl
  sink := hk
  frames := toNat_ofNat_of_lt hm
  done := rfl
  palK := by
    rw [hlen]
    exact (congrArg _ (latched_pow h1 h8).1).trans (BitVec.toNat_ofNat _ _ |>.trans (Nat.mod_eq_of_lt (by omega)))
  tflag := rfl
  tidx := rfl
  tmulti := rfl
  palette := by
    have hle : es.length ≤ 256 := by
      rw [hlen]
      exact Nat.pow_le_pow_right (by omega) h8
    intro i h
    have hread := (Memory.readEntry_writeTable s.palette 0 es).2 i h
    rw [List.take_of_length_le hle]
    rwa [Nat.zero_add] at hread

/-- The loop count that START latches from EncodeAll's (R191). -/
theorem normaliseLoop_ofInt {v : Int} (hlo : -(2 ^ 31) ≤ v) (hhi : v < 2 ^ 31) :
    normaliseLoop (BitVec.ofNat 32 (BitVec.ofInt 32 v).toNat) = if v < 0 then 0 else BitVec.ofInt 16 v := by
  have hint : (BitVec.ofInt 32 v).toInt = v := by
    rw [BitVec.toInt_ofInt]
    exact Int.bmod_eq_of_le (by omega) (by omega)
  rw [BitVec.ofNat_toNat, BitVec.setWidth_eq, normaliseLoop, BitVec.msb_eq_toInt, hint]
  simp only [decide_eq_true_eq]
  split
  · rfl
  · apply BitVec.eq_of_toNat_eq
    simp only [lowHalf, BitVec.extractLsb'_toNat, BitVec.toNat_ofInt, Nat.shiftRight_eq_div_pow]
    omega

/-- EncodeAll up to its look after BEGIN, with operands that START admits (R99, R190, R191). -/
theorem drives_opening {s : State} {frames : List HostFrame} {delays : List Nat} {loopCount : Int} {k : Nat}
    (hb : s.busy = false) (hp : s.phase = .idle ∨ s.phase = .done) (hf : frames.length < 2 ^ 32)
    (hdelays : frames.length = delays.length) (hne : frames ≠ []) (h1 : 1 ≤ k) (h8 : k ≤ 8)
    (hlen : (firstPalette frames).length = 2 ^ k) (hlo : -(2 ^ 31) ≤ loopCount) (hhi : loopCount < 2 ^ 31)
    (hk : s.sink = { script := [], rest := .accept }) :
    ∃ n u, Drives n (paletteMoves (firstPalette frames) ++ beginMoves frames.length delays.length
        (BitVec.ofInt 32 loopCount).toNat (firstPalette frames).length ++ [.checkError]) s u ∧
      Opened u k frames.length (firstPalette frames) ∧ u.err = s.err ∧ u.out = s.out ∧
      u.loopL = (if loopCount < 0 then 0 else BitVec.ofInt 16 loopCount) ∧
      u.mcs = BitVec.ofNat 4 (if k = 1 then 2 else k + 1) := by
  have hpow : (firstPalette frames).length < 2 ^ 32 := hlen ▸ Nat.pow_lt_pow_right (by omega) (by omega)
  have hcode : beginError frames delays = none := by
    rw [beginError, if_neg (by simpa using hdelays), if_neg hne, if_pos (by rw [hlen]; exact pow_mem_lengths h1 h8)]
  obtain ⟨n, hbegin⟩ := drives_palette_begin (firstPalette frames) frames.length delays.length
    (BitVec.ofInt 32 loopCount).toNat hb hp
  rw [started_of_none ((startCheck_eq_beginError _ _ hf (hdelays ▸ hf) hpow).trans hcode)] at hbegin
  have hopened := opened_openStream (loop := (BitVec.ofInt 32 loopCount).toNat) hb hk h1 h8 hf hlen
  rw [← hdelays] at hbegin ⊢
  refine ⟨n + 1, _, hbegin.append (drives_checkError hopened.phase_ne_error), hopened, rfl, rfl,
    normaliseLoop_ofInt hlo hhi, ?_⟩
  rw [← (latched_pow h1 h8).2, ← hlen]
  rfl

/-- The end of the call does nothing (R99). -/
theorem drives_callEnd (s : State) : Drives 1 [.callEnd] s s := fun reads _ => ⟨reads, steps_one rfl⟩

/-- Settles O45: BEGIN opens the stream, and the moves after it write it. -/
theorem encodeAllWritesOneStream : Obligations.EncodeAllWritesOneStream := by
  intro s compress frames delays loopCount rest k hb hp hf hdelays hne h1 h8 hlen hlo hhi hk ha
  obtain ⟨m, u, hopening, hopened, herr₀, hout₀, hloop₀, hmcs₀⟩ :=
    drives_opening hb hp hf hdelays hne h1 h8 hlen hlo hhi hk
  obtain ⟨n, t, hstream, hphase, herr, hbusy, hfcL, hdone, hloopL, hmcs, htflag, htidx, hout⟩ :=
    drives_streamMoves compress h1 h8 hlen hdelays hopened
  obtain ⟨reads, hsteps⟩ := ((hopening.append hstream).append (drives_callEnd t)).steps ha
  have hframes : t.fcL.toNat = frames.length := by rw [hfcL, hopened.frames]
  rw [hout₀] at hout
  exact ⟨_, _, hsteps, rfl, hphase, herr.trans herr₀, hbusy, hframes, hdone.trans hfcL.symm, hloopL.trans hloop₀,
    hmcs.trans hmcs₀, htflag, htidx, hout⟩

end Sys2Proof.Machine
end

section
/-! PROOF. HEADER in full and at a byte the sink fails (40_header.md R120 to R126), and the frame of every command on the
block's own state. -/

namespace Sys2Proof.Machine

open Claims

/-! ## HEADER -/

/-- Settles O16: HEADER in full while the sink accepts, as `exec_header_accepted` gives it. -/
theorem headerEmitsTableAndLatchesTransparency : Obligations.HeaderEmitsTableAndLatchesTransparency :=
  fun _ _ _ => exec_header_accepted

/-- A command whose record the sink fails at byte j (R66, R200, R222). -/
theorem issue_emits_fail {p : Phase} {rule : State → List CmdStep} {s : State} {bs : List Byte} {rest : List CmdStep}
    {j : Nat} (hb : s.busy = false) (hp : s.phase = p) (he : p ≠ .error) (hrule : rule s.beginCommand = emits bs ++ rest)
    (hj : j < bs.length) (hk : s.sink.failsAt j) : issue [p] (fun s => runSteps (rule s) s) s =
      .next ((s.onward (s.out ++ bs.take j) (s.sink.after (j + 1))).enterError .writeFailure) := by
  rw [issue_legal hb (by simp [hp]) (by rwa [hp]), hrule, runSteps_emits_fail (s := s.beginCommand) hj hk]
  rfl

/-- HEADER's steps at written entries when the sink fails byte i of their table: the bytes before it stay, and the
entries whose three bytes were all accepted are scanned (R124, R126). -/
theorem runSteps_table_fail {m : Memory} {j i : Nat} {es : List Word} {rest : List CmdStep} {s : State}
    (hes : ∀ (n : Nat) (h : n < es.length), m.readEntry (j + n) = some es[n]) (hi : i < 3 * es.length)
    (hk : s.sink.failsAt i) :
    runSteps ((List.range' j es.length).flatMap (entrySteps m) ++ rest) s = .next
      (((s.onward (s.out ++ (es.flatMap colorTriplet).take i) (s.sink.after (i + 1))).scanTable j
        (es.take (i / 3))).enterError .writeFailure) := by
  induction es generalizing j i s with
  | nil => simp at hi
  | cons e es ih =>
    have hfirst : m.readEntry j = some e := hes 0 (by simp)
    have hlen : (colorTriplet e).length = 3 := rfl
    rw [List.length_cons] at hi
    rw [List.length_cons, List.range'_succ, List.flatMap_cons, List.flatMap_cons, List.append_assoc]
    obtain hlt | hge := Nat.lt_or_ge i 3
    · rw [List.take_append_of_le_length (by omega), Nat.div_eq_of_lt hlt]
      simp only [entrySteps, hfirst, List.append_assoc]
      exact runSteps_emits_fail (by omega) hk
    · obtain ⟨n, rfl⟩ := Nat.exists_eq_add_of_le hge
      have hrest : ∀ (n : Nat) (h : n < es.length), m.readEntry (j + 1 + n) = some es[n] := fun n h => by
        rw [Nat.add_assoc, Nat.add_comm 1 n]
        exact hes (n + 1) (by simpa using h)
      have hdiv : (3 + n) / 3 = n / 3 + 1 := by omega
      rw [runSteps_entry hfirst (hk.1.mono (by omega)),
        ih (s := (s.onward (s.out ++ colorTriplet e) (s.sink.after 3)).scanEntry j e) hrest (by omega) hk.after,
        hdiv, List.take_succ_cons, ← hlen, List.take_length_add_append]
      simp [State.scanTable, State.onward, State.scanEntry, Nat.add_assoc]

/-- HEADER's steps for a palette of 2^k entries: the 13 bytes, the table, the phase (R120, R121). -/
theorem headerSteps_eq_table {s : State} {es : List Word} (hlen : es.length = 2 ^ s.palK.toNat) :
    headerSteps s = emits s.headerBytes ++
      ((List.range' 0 es.length).flatMap (entrySteps s.palette) ++ [.setPhase s.phaseAfterHeader]) := by
  rw [headerSteps, State.paletteLength, hlen, List.range_eq_range']

/-- Settles O17: the failed byte is one of the first 13, before any scan, or byte i of the table. -/
theorem headerWriteFailureKeepsPrecedingBytes : Obligations.HeaderWriteFailureKeepsPrecedingBytes := by
  intro s k es j hb hp h1 h8 hk hlen hes hf hi hm hj hfail
  have hsteps : headerSteps s.beginCommand = _ := headerSteps_eq_table (s := s) (by rw [hlen, hk])
  have hlen13 : s.headerBytes.length = 13 := rfl
  rw [← headerBytes_append_table hk h1 h8 es]
  obtain hlt | hge := Nat.lt_or_ge j 13
  · have hnone : (j - 13) / 3 = 0 := by omega
    refine (issue_emits_fail hb hp (by simp) hsteps hlt hfail).trans ?_
    rw [List.take_append_of_le_length (by omega), hnone]
    simp [State.enterError, State.onward, firstTranslucent, hb, hf, hi, hm]
  · obtain ⟨i, rfl⟩ := Nat.exists_eq_add_of_le hge
    refine (issue_emits hb hp (by simp) hsteps (hfail.1.mono hge)).trans
      ((runSteps_table_fail (by simpa using hes) (by omega) hfail.after).trans ?_)
    rw [scanTable_fresh (by exact hf) (by exact hi) (by exact hm), ← hlen13, List.take_length_add_append]
    simp [State.enterError, State.onward, State.beginCommand, hb, hlen13, Nat.add_assoc]

/-! ## What each command changes -/

/-- Settles O29: the next states a command can answer, one law of the command each, differ from the state only in the
fields that the named updates write. -/
theorem commandsChangeOnlyWhatTheirRulesName : Obligations.CommandsChangeOnlyWhatTheirRulesName := by
  intro i s t h
  obtain ⟨hb, hcases⟩ := exec_cases h
  obtain ⟨rfl, rfl⟩ | ⟨-, -, -, rfl⟩ | ⟨-, -, rfl⟩ | ⟨rfl, rfl⟩ | ⟨rfl, -, ⟨c, hc, rfl⟩ | ⟨-, rfl⟩⟩ | ⟨rfl, -, hr⟩ |
    ⟨rfl, -, hr⟩ | ⟨rfl, -, hr⟩ | ⟨b, rfl, -, hr⟩ | ⟨rfl, -, hr⟩ | ⟨rfl, -, hr⟩ := hcases
  · simp [hb]
  · simp [hb]
  · simp
  · simp [hb]
  · obtain rfl | rfl | rfl := startCheck_ne hc <;> simp
  · simp [hb]
  · obtain ⟨u, hu, hend⟩ := header_cases hr
    obtain ⟨o, k, tf, ti, tm, rfl⟩ := hu.only
    obtain ⟨b, tl, -, rfl⟩ | rfl | rfl := hend <;> simp
  · obtain ⟨o, k, ⟨b, bs, rfl⟩ | rfl | rfl⟩ := loopext_cases hr <;> simp [State.onward]
  · obtain ⟨o, k, ⟨b, bs, rfl⟩ | rfl | rfl⟩ := frame_cases hr <;> simp [State.onward]
  · obtain ⟨-, rfl⟩ | ⟨-, o, k, ⟨c, bs, rfl⟩ | rfl | rfl⟩ := push_cases hr <;> simp [State.onward]
  · obtain ⟨o, k, ⟨-, c, bs, rfl⟩ | ⟨-, rfl⟩ | rfl | rfl | rfl⟩ := frameEnd_cases hr <;> simp [State.onward]
  · obtain ⟨o, k, rfl | rfl | rfl⟩ := trailer_cases hr <;> simp [State.onward]

end Sys2Proof.Machine
end

section
/-! PROOF. SequenceError of every command (R200), and LOOPEXT (41_loop_extension.md): its 19 bytes, or those before the one
the sink fails. -/

namespace Sys2Proof.Machine

open Claims

/-- A command issued in a phase it is not legal in raises SequenceError and does nothing else (R200, R220). -/
theorem issue_out_of_phase {legal : List Phase} {run : State → Result} {s : State} (hb : s.busy = false)
    (hp : s.phase ∉ legal) (he : s.phase ≠ .error) :
    issue legal run s = .next { s with err := .sequenceError, phase := .error } := by
  simp [issue, hb, hp, he, raiseError, State.enterError]

/-- Outside ERROR a command raises SequenceError in a phase that does not admit it (R200). -/
theorem exec_out_of_phase {i : Instr} {s : State} (hb : s.busy = false) (hp : legalIn i s.phase = false)
    (he : s.phase ≠ .error) : exec i s = .next { s with err := .sequenceError, phase := .error } := by
  cases i with
  | nop | abort => simp [legalIn] at hp
  | start | header | loopext | frame | push | frameEnd | trailer =>
    simp only [exec, execStart, execHeader, execLoopext, execFrame, execPush, execFrameEnd, execTrailer]
    exact issue_out_of_phase hb (by simpa [legalIn] using hp) he

/-- LOOPEXT when the sink fails byte j (R142): the j bytes before it stay. -/
theorem exec_loopext_failed {s : State} {j : Nat} (hb : s.busy = false) (hp : s.phase = .loop) (hj : j < 19)
    (hk : s.sink.failsAt j) : exec .loopext s = .next { s with
      out := s.out ++ (loopStream s.loopL).take j, sink := s.sink.after (j + 1)
      err := .writeFailure, phase := .error } := by
  have h := issue_emits_fail (rule := loopextSteps) (bs := loopStream s.loopL) hb hp (by simp) rfl hj hk
  refine h.trans ?_
  simp [State.enterError, State.onward, hb]

/-- Settles O19: the word, and LOOPEXT with its record accepted, failed at byte j, and issued outside LOOP. -/
theorem loopextEmitsNetscapeExtension : Obligations.LoopextEmitsNetscapeExtension := by
  refine ⟨by decide, fun s hb hp hk => ?_, fun s j hb hp hj hk => ?_, fun s hb hp he => ?_⟩
  · exact exec_loopext_accepted hb hp hk
  · exact exec_loopext_failed hb hp hj hk
  · exact exec_out_of_phase hb (by simpa [legalIn] using hp) he

end Sys2Proof.Machine
end

section
/-! PROOF. The code size START latches (42_frame.md R152), and FRAME and FRAME_END in full and at a byte the sink fails
(R153, R154, R157, R158). -/

namespace Sys2Proof.Machine

open Claims

/-! ## The code size -/

/-- The search for the exponent finds Mathlib's ceiling logarithm, when that lies in the range searched (R11). -/
theorem clog2From_eq_clog {fuel k n : Nat} (hlo : k ≤ Nat.clog 2 n) (hhi : Nat.clog 2 n ≤ k + fuel) :
    clog2From fuel k n = Nat.clog 2 n := by
  induction fuel generalizing k with
  | zero => exact Nat.le_antisymm hlo hhi
  | succ fuel ih =>
    rw [clog2From]
    split
    · next hle => exact Nat.le_antisymm hlo (Nat.clog_le_of_le_pow hle)
    · next hgt => exact ih (Nat.lt_clog_iff_pow_lt (by omega) |>.2 (by omega)) (by omega)

theorem clog2_eq_clog {n : Nat} (hn : n ≤ 2 ^ 64) : clog2 n = Nat.clog 2 n :=
  clog2From_eq_clog (Nat.zero_le _) (by simpa using Nat.clog_le_of_le_pow hn)

/-- The palette lengths START admits lie between 2 and 256 (R38). -/
theorem legalPaletteLength_bounds {n : Word} (hn : legalPaletteLength n = true) :
    2 ≤ n.toNat ∧ n.toNat ≤ 256 := by
  simp only [legalPaletteLength, Config.paletteLengths, List.contains_iff_mem, List.mem_cons, List.not_mem_nil,
    or_false] at hn
  obtain rfl | rfl | rfl | rfl | rfl | rfl | rfl | rfl := hn <;> decide

/-- N + 2 codes of a palette length START admits need 2 to 9 bits (R28, R152). -/
theorem clog_codes_bounds {n : Word} (hn : legalPaletteLength n = true) :
    2 ≤ Nat.clog 2 (n.toNat + 2) ∧ Nat.clog 2 (n.toNat + 2) ≤ 9 := by
  obtain ⟨hlo, hhi⟩ := legalPaletteLength_bounds hn
  exact ⟨Nat.lt_clog_iff_pow_lt (by omega) |>.2 (by omega), Nat.clog_le_of_le_pow (by omega)⟩

/-- MCS keeps the whole ceiling logarithm of N + 2 in its 4 bits (R28, R152). -/
theorem latchedMcs_toNat {n : Word} (hn : legalPaletteLength n = true) :
    (latchedMcs n).toNat = Nat.clog 2 (n.toNat + 2) := by
  have hbound := n.isLt
  have hfits := (clog_codes_bounds hn).2
  rw [latchedMcs, clog2_eq_clog (by omega), BitVec.toNat_ofNat, Nat.mod_eq_of_lt (by omega)]

/-- Only a START whose checks pass comes to HDR from another phase (R190, R201). -/
theorem execStart_hdr {s t : State} (h : exec .start s = .next t) (hs : s.phase ≠ .hdr) (ht : t.phase = .hdr) :
    startCheck s = none ∧ t = s.openStream := by
  obtain ⟨-, ⟨-, rfl⟩ | ⟨-, -, -, rfl⟩ | ⟨-, c, -, rfl⟩ | ⟨-, hcheck, rfl⟩⟩ := execStart_cases h
  · exact absurd ht hs
  · simp at ht
  · simp at ht
  · exact ⟨hcheck, rfl⟩

/-- Settles O12: MCS is the ceiling logarithm of PAL_LEN + 2, which is the least exponent by definition. -/
theorem startComputesSmallestCodeSize : Obligations.StartComputesSmallestCodeSize := by
  intro s t _ h hs ht
  obtain ⟨hcheck, rfl⟩ := execStart_hdr h hs ht
  obtain ⟨-, -, hlegal⟩ := startCheck_none hcheck
  rw [State.openStream_mcs, latchedMcs_toNat hlegal]
  exact ⟨Nat.le_pow_clog (by omega) _, fun _ => Nat.pow_lt_of_lt_clog, clog_codes_bounds hlegal⟩

/-! ## FRAME -/

/-- Settles O20: FRAME in full while the sink accepts, as `exec_frame_accepted` gives it. -/
theorem frameEmitsFrameHeader : Obligations.FrameEmitsFrameHeader :=
  fun _ => exec_frame_accepted

/-- Settles O21: the failed byte is one of FRAME's record, so neither SB_CNT <- 0 nor PHASE <- DATA is reached. -/
theorem frameWriteFailureKeepsFill : Obligations.FrameWriteFailureKeepsFill := by
  intro s j hb hp hj hk
  have h := issue_emits_fail (rule := frameSteps) (bs := s.frameBytes) hb hp (by simp) rfl hj hk
  refine h.trans ?_
  rw [frameBytes_eq]
  simp [State.enterError, State.onward, hb]

/-! ## FRAME_END -/

/-- The bytes SB_FLUSH emits: the held bytes as a sub-block, if there are any (R172). -/
def State.flushBytes (s : State) : List Byte := if s.sbCnt = 0 then [] else s.sbCnt :: s.held

/-- FRAME_END's bytes are the flush and the terminator (R156). -/
theorem flushStream_eq_flushBytes (s : State) : flushStream s = s.flushBytes ++ [blockTerminator] := rfl

theorem flushStream_length_flushBytes (s : State) : (flushStream s).length = s.flushBytes.length + 1 := by
  simp [flushStream_eq_flushBytes]

/-- FRAME_END emits 1 byte, or two more than the chunker holds (R156, R172). -/
theorem flushStream_length (s : State) :
    (flushStream s).length = if s.sbCnt = 0 then 1 else s.sbCnt.toNat + 2 := by
  rw [flushStream_length_flushBytes, State.flushBytes]
  split <;> simp [held_length]

/-- Settles O24: the number of bytes, and FRAME_END in full while the sink accepts. -/
theorem frameEndFlushesAndCounts : Obligations.FrameEndFlushesAndCounts :=
  fun s hb hp hd hk => ⟨flushStream_length s, exec_frameEnd_accepted hb hp hd hk⟩

/-- FRAME_END's steps, as they are issued: the flush, SB_CNT <- 0 if bytes were held, the terminator and the count. -/
theorem frameEndSteps_beginCommand (s : State) : frameEndSteps s.beginCommand = emits s.flushBytes ++
    ((if s.sbCnt = 0 then [] else [.clearFill]) ++ [.emit blockTerminator, .endFrame]) :=
  frameEndSteps_eq s.beginCommand

/-- Once its flush is accepted, FRAME_END holds no byte and goes on to its terminator (R156, R172). -/
theorem exec_frameEnd_flushed {s : State} (hb : s.busy = false) (hp : s.phase = .data)
    (hk : s.sink.accepts s.flushBytes.length) : exec .frameEnd s = runSteps [.emit blockTerminator, .endFrame]
      (s.clearFill.onward (s.out ++ s.flushBytes) (s.sink.after s.flushBytes.length)).beginCommand := by
  refine (issue_emits hb hp (by simp) (frameEndSteps_beginCommand s) hk).trans ?_
  by_cases h0 : s.sbCnt = 0
  · have hclear : s.clearFill = s := by rw [State.clearFill, ← h0]
    rw [if_pos h0, hclear, List.nil_append]
  · rw [if_neg h0]
    rfl

/-- Settles O25: the failed byte is one of the flush, before SB_CNT <- 0, or the terminator, after it. -/
theorem frameEndWriteFailureDoesNotCount : Obligations.FrameEndWriteFailureDoesNotCount := by
  intro s j hb hp hj hk
  rw [flushStream_length_flushBytes] at hj ⊢
  rw [flushStream_eq_flushBytes]
  obtain hflush | rfl : j < s.flushBytes.length ∨ j = s.flushBytes.length := by omega
  · refine (issue_emits_fail hb hp (by simp) (frameEndSteps_beginCommand s) hflush hk).trans ?_
    rw [List.take_append_of_le_length (by omega), if_neg (by omega)]
    simp [State.enterError, State.onward, hb]
  · have hterm := runSteps_emits_fail (bs := [blockTerminator]) (rest := [.endFrame]) (j := 0)
      (s := (s.clearFill.onward (s.out ++ s.flushBytes) (s.sink.after s.flushBytes.length)).beginCommand)
      (by simp) hk.after
    refine (exec_frameEnd_flushed hb hp hk.1).trans (hterm.trans ?_)
    simp [State.enterError, State.onward, State.clearFill, State.beginCommand, hb]

end Sys2Proof.Machine
end

section
/-! PROOF. PUSH and the sub-block chunker (43_subblock.md): a PUSH alone (R170, R171), a byte of its block that the sink
fails (R174), and the whole of a frame's image data (R173). -/

namespace Sys2Proof.Machine

open Claims

/-! ## A PUSH alone -/

/-- SB_CNT and one more, on numbers. -/
theorem ofNat_sbCnt_succ (s : State) : BitVec.ofNat 8 (s.sbCnt.toNat + 1) = s.sbCnt + 1 := by bv_omega

/-- Settles O22: `exec_push_held` below 254 held bytes, `exec_push_full` at 254. -/
theorem pushBuffersOrEmitsFullBlock : Obligations.PushBuffersOrEmitsFullBlock := by
  refine ⟨fun s b hb hp hc => ?_, fun s b => exec_push_full⟩
  rw [exec_push_held hb hp hc, ofNat_sbCnt_succ]
  rfl

/-! ## A failed byte -/

theorem fullBlock_length {s : State} (hc : s.sbCnt.toNat = 254) (b : Byte) : (fullBlock s b).length = 256 := by
  simp [fullBlock_eq hc, held_length, hc]

/-- A PUSH of the 255th byte buffers it, emits the full block, then sets SB_CNT <- 0 (R170, R171). -/
theorem exec_push_fills {s : State} {b : Byte} (hb : s.busy = false) (hp : s.phase = .data) (hc : s.sbCnt.toNat = 254) :
    exec (.push b) s = runSteps (emits (fullBlock s b) ++ [.clearFill]) (s.beginCommand.bufferByte b) := by
  have hfull : (s.beginCommand.bufferByte b).sbCnt = 255 := by
    rw [State.bufferByte_sbCnt, State.beginCommand_sbCnt]
    bv_omega
  have hheld : (s.beginCommand.bufferByte b).held = s.held ++ [b] :=
    held_bufferByte (s := s.beginCommand) (by rw [State.beginCommand_sbCnt]; omega) b
  rw [exec_push_runs hb hp, pushSteps, if_pos hfull, blockSteps_eq, hfull, hheld, fullBlock_eq hc]

/-- A PUSH whose full block the sink fails at byte j: SB_CNT <- 0 is not reached (R174). -/
theorem exec_push_failed {s : State} {b : Byte} {j : Nat} (hb : s.busy = false) (hp : s.phase = .data)
    (hc : s.sbCnt.toNat = 254) (hj : j < 256) (hk : s.sink.failsAt j) : exec (.push b) s = .next { s with
      out := s.out ++ (fullBlock s b).take j, sink := s.sink.after (j + 1)
      sbBuf := s.sbBuf.setIfInBounds 254 b, sbCnt := 255, err := .writeFailure, phase := .error } := by
  have hcnt : s.sbCnt + 1 = 255 := by bv_omega
  rw [exec_push_fills hb hp hc, runSteps_emits_fail (by rwa [fullBlock_length hc]) (by exact hk)]
  simp only [State.enterError, State.bufferByte, State.beginCommand, hb, hc, hcnt]

/-- ABORT while BUSY = 0 (R195). -/
theorem exec_abort {s : State} (hb : s.busy = false) : exec .abort s = .next s.abandon := by
  rw [← State.abandon_beginCommand hb]
  simp [exec, execAbort, issueAlways, hb]

/-- Settles O23: the failed byte keeps SB_CNT <- 0 from happening, and ABORT makes it; without a full buffer there is no
byte to fail. -/
theorem pushWriteFailureLeavesFillFull : Obligations.PushWriteFailureLeavesFillFull := by
  refine ⟨fun s b j hb hp hc hj hk => ?_, fun s b hb hp hc => ?_⟩
  · exact ⟨_, exec_push_failed hb hp hc hj hk, rfl, _, exec_abort hb, rfl⟩
  · exact ⟨_, exec_push_held hb hp hc, hp, rfl, rfl, rfl⟩

/-! ## All the bytes of a frame -/

theorem execAll_cons {i : Instr} {is : List Instr} {s t : State} (h : exec i s = .next t) :
    execAll (i :: is) s = execAll is t := by
  rw [execAll, h]

/-- Each sub-block adds its length byte: one for every 255 bytes and one for the rest (R94, R173). -/
theorem subBlocks_length {n : Nat} {bs : List Byte} (h : bs.length ≤ n) :
    (subBlocks n bs).length = bs.length + (bs.length + 254) / 255 := by
  induction n generalizing bs with
  | zero =>
    obtain rfl : bs = [] := List.eq_nil_of_length_eq_zero (Nat.le_zero.1 h)
    rfl
  | succ n ih =>
    rw [subBlocks]
    split
    · next hnil => simp [hnil]
    · next hne =>
      have hpos := List.length_pos_iff.2 hne
      have hrest := ih (bs := bs.drop 255) (by rw [List.length_drop]; omega)
      rw [List.length_drop] at hrest
      rw [List.length_cons, List.length_append, List.length_take, hrest]
      omega

theorem imageData_length (bs : List Byte) :
    (imageData bs).length = bs.length + (bs.length + 254) / 255 + 1 := by
  simp [imageData, subBlocks_length]

/-- FRAME_END whose bytes the sink accepts, whether or not a frame is due (R156). -/
theorem exec_frameEnd_counts {s : State} (hb : s.busy = false) (hp : s.phase = .data)
    (hk : s.sink.accepts (flushStream s).length) : exec .frameEnd s = .next
      (s.clearFill.onward (s.out ++ flushStream s) (s.sink.after (flushStream s).length)).countFrame := by
  rw [flushStream_length_flushBytes] at hk ⊢
  rw [exec_frameEnd_flushed hb hp (hk.mono (by omega)), flushStream_eq_flushBytes]
  have hterm := runSteps_emits (bs := [blockTerminator]) (rest := [.endFrame])
    (s := (s.clearFill.onward (s.out ++ s.flushBytes) (s.sink.after s.flushBytes.length)).beginCommand) hk.after
  refine hterm.trans ?_
  simp [runSteps, State.endCommand, State.countFrame, State.onward, State.clearFill, State.beginCommand, hb]

/-- PUSHes and a FRAME_END whose bytes the sink accepts: what was held and what is pushed leaves as image data, and the
frame is counted (R156, R173). -/
theorem execAll_pushes_frameEnd {s : State} {bs : List Byte} (hb : s.busy = false) (hp : s.phase = .data)
    (hc : s.sbCnt.toNat ≤ 254) (hk : s.sink.accepts (imageData (s.held ++ bs)).length) :
    ∃ t, execAll (bs.map .push ++ [.frameEnd]) s = .next t ∧ t.out = s.out ++ imageData (s.held ++ bs) ∧
      t.sbCnt = 0 ∧ t.framesDone = s.framesDone + 1 := by
  induction bs generalizing s with
  | nil =>
    rw [List.append_nil, ← flushStream_eq] at hk ⊢
    exact ⟨_, execAll_cons (exec_frameEnd_counts hb hp hk), rfl, rfl, rfl⟩
  | cons b bs ih =>
    rw [← pushStream_append_imageData hc, List.length_append] at hk
    obtain ⟨t, ht, hout, hcnt, hdone⟩ := ih (s := s.pushed b) hb hp (pushed_sbCnt_le hc b) hk.after
    have hpush := exec_push_accepted hb hp hc (hk.mono (Nat.le_add_right _ _))
    refine ⟨t, (execAll_cons hpush).trans ht, ?_, hcnt, hdone⟩
    rw [hout, ← pushStream_append_imageData hc, ← List.append_assoc]
    rfl

/-- Settles O26: the pushes and the flush from an empty buffer. -/
theorem pushedBytesLeaveAsSubBlocks : Obligations.PushedBytesLeaveAsSubBlocks := by
  intro s bs hb hp hc hk
  have hheld : s.held = [] := List.eq_nil_of_length_eq_zero (by rw [held_length, hc]; rfl)
  rw [← imageData_length] at hk
  obtain ⟨t, ht, hout, hcnt, hdone⟩ := execAll_pushes_frameEnd (bs := bs) hb hp (by simp [hc]) (by rwa [hheld])
  rw [hheld] at hout
  exact ⟨t, ht, hout, hcnt, hdone, imageData_length bs⟩

end Sys2Proof.Machine
end

section
/-! PROOF. START, NOP, TRAILER and ABORT (44_orchestrator.md R190 to R195), and SequenceError (R200): the next state of each,
written out. -/

namespace Sys2Proof.Machine

open Claims

/-! ## SequenceError and NOP -/

/-- Settles O5: acceptance stops at the phase check, as `exec_out_of_phase` gives it for every command. -/
theorem outOfPhaseRaisesSequenceError : Obligations.OutOfPhaseRaisesSequenceError :=
  fun _ _ hb he hp => exec_out_of_phase hb hp he

/-- NOP sets BUSY and clears it again (R193). -/
theorem exec_nop {s : State} (hb : s.busy = false) : exec .nop s = .next s := by
  simp [exec, execNop, issueAlways, hb, State.endCommand_beginCommand hb]

/-- Only NOP has opcode 0 (R82). -/
theorem eq_nop_of_opcode_zero {i : Instr} (h : (opcode i).toNat = 0) : i = .nop := by
  cases i <;> simp [opcode] at h ⊢

/-- Settles O14: a word with opcode 0 that decodes is NOP's own word, which is 0. -/
theorem nopChangesNothing : Obligations.NopChangesNothing := by
  refine ⟨fun s hb => exec_nop hb, by decide, fun w hop hne i hdec => hne ?_⟩
  obtain rfl := eq_nop_of_opcode_zero ((fields_of_decode hdec).1.trans hop)
  rw [← encode_of_decode hdec]
  rfl

/-! ## TRAILER -/

/-- TRAILER when the sink fails its byte (R192, R222). -/
theorem exec_trailer_failed {s : State} (hb : s.busy = false) (hp : s.phase = .trl) (hk : s.sink.failsAt 0) :
    exec .trailer s = .next { s with sink := s.sink.after 1, err := .writeFailure, phase := .error } := by
  have h := issue_emits_fail (rule := fun _ => trailerSteps) (bs := [trailerByte]) hb hp (by simp) rfl (by simp) hk
  refine h.trans ?_
  simp [State.enterError, State.onward, hb]

/-- The answer to the byte on offer, as the claims on whole records take it. -/
theorem Sink.accepts_one {k : Sink} (h : k.answer = .accept) : k.accepts 1 := by
  intro j hj
  obtain rfl : j = 0 := by omega
  simpa using h

theorem Sink.failsAt_zero {k : Sink} (h : k.answer = .fail) : k.failsAt 0 :=
  ⟨fun _ hj => absurd hj (Nat.not_lt_zero _), by simpa using h⟩

/-- Settles O13: the word, TRAILER with its byte accepted or failed, the STATUS it leaves, and TRAILER outside TRL. -/
theorem trailerEndsStream : Obligations.TrailerEndsStream := by
  refine ⟨by decide, fun s hb hp => ⟨fun hk => ?_, fun hk => ?_⟩, fun s t hb hp herr hmulti hk h => ?_,
    fun s hb hp he => ?_⟩
  · exact exec_trailer_accepted hb hp (Sink.accepts_one hk)
  · exact exec_trailer_failed hb hp (Sink.failsAt_zero hk)
  · rw [exec_trailer_accepted hb hp (Sink.accepts_one hk)] at h
    obtain rfl := Host.Outcome.next.inj h
    simp only [statusWord_eq, hb, herr, hmulti]
    rfl
  · exact exec_out_of_phase hb (by simpa [legalIn] using hp) he

/-! ## ABORT -/

/-- Only ABORT leads out of ERROR (R224, R225). -/
theorem exec_stays_in_error {i : Instr} {s t : State} (hp : s.phase = .error) (h : exec i s = .next t) (ha : i ≠ .abort) :
    t.phase = .error := by
  have hb : s.busy = false := (exec_cases h).1
  have hsame : exec i s = .next s := by
    by_cases hn : i = .nop
    · rw [hn, exec_nop hb]
    · exact exec_ignored hb hp hn ha
  obtain rfl := Host.Outcome.next.inj (hsame.symm.trans h)
  exact hp

/-- Settles O15: the word, ABORT's next state and its STATUS, and that every other command stays in ERROR. -/
theorem abortReturnsToIdle : Obligations.AbortReturnsToIdle := by
  refine ⟨by decide, fun s hb => exec_abort hb, fun s t h => ?_, fun i s t hp h ha => exec_stays_in_error hp h ha⟩
  have hb : s.busy = false := (exec_cases h).1
  obtain rfl := Host.Outcome.next.inj ((exec_abort hb).symm.trans h)
  rw [statusWord_eq, State.abandon_busy, hb]
  rfl

/-! ## START -/

/-- The palette lengths of R38 are the powers of two from 2 to 256. -/
theorem mem_lengths_iff {n : Nat} : n ∈ [2, 4, 8, 16, 32, 64, 128, 256] ↔ ∃ k, 1 ≤ k ∧ k ≤ 8 ∧ n = 2 ^ k := by
  constructor
  · intro h
    have hall : ∀ n ∈ [2, 4, 8, 16, 32, 64, 128, 256], ∃ k < 9, 1 ≤ k ∧ n = 2 ^ k := by decide
    obtain ⟨k, hk, h1, hn⟩ := hall n h
    exact ⟨k, h1, by omega, hn⟩
  · rintro ⟨k, h1, h8, rfl⟩
    exact pow_mem_lengths h1 h8

/-- START admits a palette length when it is a power of two from 2 to 256 (R38, R190). -/
theorem legalPaletteLength_iff {n : Word} : legalPaletteLength n = true ↔ ∃ k, 1 ≤ k ∧ k ≤ 8 ∧ n.toNat = 2 ^ k := by
  have h := legalPaletteLength_ofNat n.isLt
  rw [BitVec.ofNat_toNat, BitVec.setWidth_eq] at h
  rw [h, decide_eq_true_iff, mem_lengths_iff]

/-- No check of START fails exactly when all of them pass (R190). -/
theorem startCheck_eq_none_iff {s : State} : startCheck s = none ↔ StartPasses s := by
  constructor
  · intro h
    obtain ⟨hcount, hframes, hlen⟩ := startCheck_none h
    exact ⟨hcount, hframes, legalPaletteLength_iff.1 hlen⟩
  · rintro ⟨hcount, hframes, hlen⟩
    have hlegal := legalPaletteLength_iff.2 hlen
    rw [startCheck, if_neg (not_not.2 hcount), if_neg hframes, if_neg (by simp [hlegal])]

/-- normalise(v) of R191 on numbers. -/
theorem normaliseLoop_eq (v : Word) : normaliseLoop v = if v.toInt < 0 then 0 else BitVec.ofNat 16 v.toNat := by
  have hlow : lowHalf v = BitVec.ofNat 16 v.toNat := BitVec.eq_of_toNat_eq (by simp [lowHalf_toNat])
  rw [normaliseLoop, BitVec.msb_eq_toInt, hlow]
  simp

/-- The latches of a stream with a palette of 2^k entries, written out (R190, R191, R152). -/
theorem openStream_eq {s : State} {k : Nat} (h1 : 1 ≤ k) (h8 : k ≤ 8) (hlen : s.palLen.toNat = 2 ^ k) :
    s.openStream = { s with
      fcL := s.frameCount
      loopL := if s.loopCount.toInt < 0 then 0 else BitVec.ofNat 16 s.loopCount.toNat
      palK := BitVec.ofNat 4 k
      mcs := BitVec.ofNat 4 (if k = 1 then 2 else k + 1)
      tflag := false, tidx := 0, tmulti := false, framesDone := 0, sbCnt := 0, phase := .hdr } := by
  have hpow : s.palLen = BitVec.ofNat 32 (2 ^ k) := by rw [← hlen, BitVec.ofNat_toNat, BitVec.setWidth_eq]
  obtain ⟨hpalK, hmcs⟩ := latched_pow h1 h8
  rw [State.openStream, normaliseLoop_eq, hpow, hpalK, hmcs]

/-- START with a failing check changes only ERR and PHASE (R190). -/
theorem exec_start_fails {s : State} {code : ErrKind} (hb : s.busy = false) (hp : s.phase = .idle ∨ s.phase = .done)
    (hc : startCheck s = some code) : exec .start s = .next { s with err := code, phase := .error } := by
  rw [exec_start hb hp, started_of_some hc, State.enterError, ← hb]

/-- START whose checks pass opens the stream (R190). -/
theorem exec_start_passes {s : State} (hb : s.busy = false) (hp : s.phase = .idle ∨ s.phase = .done)
    (h : StartPasses s) : exec .start s = .next s.openStream := by
  rw [exec_start hb hp, started_of_none (startCheck_eq_none_iff.2 h)]

/-- Settles O11: the word, the checks in R190's order with the latches when all pass, and START in any other phase. -/
theorem startChecksThenLatches : Obligations.StartChecksThenLatches := by
  refine ⟨by decide, fun s hb hp => ⟨fun hne => ?_, fun heq h0 => ?_, fun heq h0 hlen => ?_,
    fun k heq h0 h1 h8 hlen => ?_⟩, fun s hb hidle hdone he => ?_⟩
  · exact exec_start_fails hb hp (by rw [startCheck, if_pos hne])
  · exact exec_start_fails hb hp (by rw [startCheck, if_neg (not_not.2 heq), if_pos h0])
  · have hillegal : legalPaletteLength s.palLen = false := Bool.eq_false_iff.2 (mt legalPaletteLength_iff.1 hlen)
    exact exec_start_fails hb hp (by rw [startCheck, if_neg (not_not.2 heq), if_neg h0, if_pos hillegal])
  · rw [exec_start_passes hb hp ⟨heq, h0, k, h1, h8, hlen⟩, openStream_eq h1 h8 hlen]
  · exact exec_out_of_phase hb (by simp [legalIn, hidle, hdone]) he

end Sys2Proof.Machine
end

section
/-! PROOF. The phase table (44_orchestrator.md R201): in which phase a command can end. -/

namespace Sys2Proof.Machine

open Claims

/-! ## A sink that never fails -/

/-- The only phase HEADER's steps set is the one after it (R125). -/
theorem setPhase_mem_headerSteps {s : State} {p : Phase} (h : .setPhase p ∈ headerSteps s) : p = s.phaseAfterHeader := by
  obtain ⟨table, hsteps, htable⟩ := headerSteps_form s
  rw [hsteps, List.mem_append, List.mem_singleton] at h
  obtain hmem | hlast := h
  · exact absurd (htable _ hmem) (by simp [CmdStep.ofTable])
  · exact CmdStep.setPhase.inj hlast

theorem setPhase_not_mem_emits (p : Phase) (bs : List Byte) : .setPhase p ∉ emits bs := by simp [emits]

theorem setPhase_not_mem_blockSteps (s : State) (p : Phase) : .setPhase p ∉ blockSteps s := by
  simp [blockSteps, setPhase_not_mem_emits]

theorem setPhase_not_mem_pushSteps (s : State) (p : Phase) : .setPhase p ∉ pushSteps s := by
  unfold pushSteps
  split
  · exact setPhase_not_mem_blockSteps s p
  · exact List.not_mem_nil

theorem setPhase_not_mem_frameEndSteps (s : State) (p : Phase) : .setPhase p ∉ frameEndSteps s := by
  unfold frameEndSteps flushSteps
  split <;> simp [setPhase_not_mem_blockSteps]

/-- A command other than START, legal in its phase, raises no error unless the sink fails a byte (R201, R220). -/
theorem exec_neverFails {i : Instr} {s t : State} (h : exec i s = .next t) (he : s.phase ≠ .error)
    (hl : legalIn i s.phase = true) (hs : i ≠ .start) (hk : s.sink.neverFails) : t.phase ≠ .error := by
  have hrun {steps : List CmdStep} {u : State} (hr : runSteps steps u = .next t) (hsink : u.sink = s.sink)
      (hphase : u.phase = s.phase) (hsteps : ∀ p, .setPhase p ∈ steps → p ≠ .error) : t.phase ≠ .error :=
    runSteps_neverFails hsteps (hsink ▸ hk) (hphase ▸ he) hr
  obtain ⟨-, hcases⟩ := exec_cases h
  obtain ⟨-, rfl⟩ | ⟨herr, -⟩ | ⟨-, hill, -⟩ | ⟨-, rfl⟩ | ⟨rfl, -⟩ | ⟨-, -, hr⟩ | ⟨-, -, hr⟩ | ⟨-, -, hr⟩ | ⟨b, -, -, hr⟩ |
    ⟨-, -, hr⟩ | ⟨-, -, hr⟩ := hcases
  · exact he
  · exact absurd herr he
  · simp [hl] at hill
  · simp
  · exact absurd rfl hs
  · refine hrun hr rfl rfl (fun p hp => ?_)
    rw [setPhase_mem_headerSteps hp]
    obtain hnext | hnext := State.phaseAfterHeader_eq s <;> simp [hnext]
  · exact hrun hr rfl rfl (by simp [loopextSteps, setPhase_not_mem_emits])
  · exact hrun hr rfl rfl (by simp [frameSteps, setPhase_not_mem_emits])
  · exact hrun hr rfl rfl (fun p hp => absurd hp (setPhase_not_mem_pushSteps _ p))
  · exact hrun hr rfl rfl (fun p hp => absurd hp (setPhase_not_mem_frameEndSteps s p))
  · exact hrun hr rfl rfl (by simp [trailerSteps])

/-! ## The rows of the table -/

/-- Where a command may stand in the phase table: cut by a stall in the phase it came from, or ended in a phase of its row
(R201). -/
def InRow (s : State) (i : Instr) (t : State) : Prop :=
  (t.busy = false ∧ t.phase ∈ phasesAfter s i) ∨ (t.busy = true ∧ t.phase = s.phase)

/-- A command issued outside the phases it is legal in has the row ERROR (R200, R201). -/
theorem phasesAfter_illegal {s : State} {i : Instr} (hl : legalIn i s.phase = false) : phasesAfter s i = [.error] := by
  unfold phasesAfter
  split <;> simp_all [legalIn]

theorem phasesAfter_error {s : State} {i : Instr} (hp : s.phase = .error) (ha : i ≠ .abort) :
    phasesAfter s i = [.error] := by
  cases i <;> simp_all [phasesAfter]

/-- The phase after HEADER, on numbers (R125). -/
theorem phaseAfterHeader_toNat (s : State) : s.phaseAfterHeader = if 1 < s.fcL.toNat then .loop else .frm := by
  simp [State.phaseAfterHeader, BitVec.lt_def]

/-- A command that answers a next state stands in its row of the phase table. -/
theorem exec_inRow {i : Instr} {s t : State} (hinv : s.Inv) (h : exec i s = .next t) : InRow s i t := by
  obtain ⟨hb, hcases⟩ := exec_cases h
  obtain ⟨rfl, rfl⟩ | ⟨hp, -, ha, rfl⟩ | ⟨-, hill, rfl⟩ | ⟨rfl, rfl⟩ | ⟨rfl, hp, ⟨c, -, rfl⟩ | ⟨-, rfl⟩⟩ | ⟨rfl, hp, hr⟩ |
    ⟨rfl, hp, hr⟩ | ⟨rfl, hp, hr⟩ | ⟨b, rfl, hp, hr⟩ | ⟨rfl, hp, hr⟩ | ⟨rfl, hp, hr⟩ := hcases
  · exact .inl ⟨hb, by simp [phasesAfter]⟩
  · exact .inl ⟨hb, by simp [phasesAfter_error hp ha, hp]⟩
  · exact .inl ⟨rfl, by simp [phasesAfter_illegal hill]⟩
  · exact .inl ⟨hb, by simp [phasesAfter]⟩
  · exact .inl ⟨rfl, by obtain hp | hp := hp <;> simp [phasesAfter, hp]⟩
  · exact .inl ⟨hb, by obtain hp | hp := hp <;> simp [phasesAfter, hp]⟩
  · obtain ⟨u, hu, hend⟩ := header_cases hr
    obtain ⟨o, k, tf, ti, tm, rfl⟩ := hu.only
    obtain ⟨b, tl, -, rfl⟩ | rfl | rfl := hend <;> simp [InRow, phasesAfter, hp, phaseAfterHeader_toNat]
  · obtain ⟨o, k, ⟨b, bs, rfl⟩ | rfl | rfl⟩ := loopext_cases hr <;> simp [InRow, phasesAfter, hp, State.onward]
  · obtain ⟨o, k, ⟨b, bs, rfl⟩ | rfl | rfl⟩ := frame_cases hr <;> simp [InRow, phasesAfter, hp, State.onward]
  · obtain ⟨-, rfl⟩ | ⟨-, o, k, ⟨c, bs, rfl⟩ | rfl | rfl⟩ := push_cases hr <;>
      simp [InRow, phasesAfter, hp, State.onward]
  · have hdue := hinv.due (.inr hp)
    have hless : s.framesDone + 1#32 < s.fcL ↔ s.framesDone.toNat + 1 < s.fcL.toNat := by bv_omega
    obtain ⟨o, k, ⟨-, c, bs, rfl⟩ | ⟨-, rfl⟩ | rfl | rfl | rfl⟩ := frameEnd_cases hr <;>
      simp [InRow, phasesAfter, hp, State.onward, hless]
  · obtain ⟨o, k, rfl | rfl | rfl⟩ := trailer_cases hr <;> simp [InRow, phasesAfter, hp, State.onward]

/-! ## START -/

/-- START opens a stream exactly when its checks pass (R190, R201). -/
theorem exec_start_hdr_iff {s t : State} (hp : s.phase = .idle ∨ s.phase = .done) (h : exec .start s = .next t) :
    t.phase = .hdr ↔ StartPasses s := by
  obtain rfl := Host.Outcome.next.inj ((exec_start (exec_cases h).1 hp).symm.trans h)
  rw [← startCheck_eq_none_iff]
  obtain ⟨code, hc, hs⟩ | ⟨hc, hs⟩ := started_cases s <;> simp [hc, hs]

/-- Settles O9: the row of every command, the error that only the sink can bring, and START's checks. -/
theorem commandsFollowPhaseTable : Obligations.CommandsFollowPhaseTable := by
  intro i s t hinv h
  refine ⟨fun hb => ?_, fun hb => ?_, fun he hl hs hk => exec_neverFails h he hl hs hk, ?_⟩
  · exact (exec_inRow hinv h).elim And.right fun hcut => by simp [hb] at hcut
  · exact (exec_inRow hinv h).elim (fun hend => by simp [hb] at hend) And.right
  · rintro rfl hp
    exact exec_start_hdr_iff hp h

end Sys2Proof.Machine
end

section
/-! PROOF. A run of commands from a fresh stream to DONE (30_encoding.md R96, 44_orchestrator.md R201, R202), read backwards:
what is still to come of the stream in each phase, and that every command of the run emits the first part of it. -/

namespace Sys2Proof.Machine

open Claims

/-! ## The rest of a stream -/

/-- The frames of the image data `datas`, each after the frame header `head`, and the trailer (R96). -/
def framesAndTrailer (head : List Byte) (datas : List (List Byte)) : List Byte :=
  datas.flatMap (fun d => head ++ imageData d) ++ [0x3B]

/-- What a complete stream has still to emit, by the phase (R96, R201): `datas` holds the image data of the frames not yet
done, of which DATA has begun the first. -/
def streamRest (head : List Byte) (es : List Word) (datas : List (List Byte)) (s : State) : List Byte :=
  match s.phase with
  | .hdr => headerStream s.frameMax s.palK.toNat es ++ (if 1 < s.fcL.toNat then loopStream s.loopL else [])
      ++ framesAndTrailer head datas
  | .loop => loopStream s.loopL ++ framesAndTrailer head datas
  | .frm => framesAndTrailer head datas
  | .data => imageData (s.held ++ datas.headD []) ++ framesAndTrailer head datas.tail
  | .trl => framesAndTrailer head datas
  | .done => []
  | .idle => []
  | .error => []

/-- From s the stream is completed at t: the frames left and the bytes emitted between are those of the rest of the stream,
with the frame header that t's registers and latches give. -/
def Completes (es : List Word) (t s : State) : Prop :=
  ∃ datas, datas.length + s.framesDone.toNat = s.fcL.toNat ∧ t.out = s.out ++ streamRest (frameStream t) es datas s ∧
    (s.phase ≠ .hdr → frameStream s = frameStream t)

/-- A state in which commands can run to the end of a stream: the invariant holds, nothing waits, the sink accepts every
byte and the palette is written. -/
structure Running (es : List Word) (s : State) : Prop where
  inv : s.Inv
  busy : s.busy = false
  sink : s.sink = { script := [], rest := .accept }
  length : es.length = 2 ^ s.palK.toNat
  palette : ∀ (i : Nat) (h : i < es.length), s.palette.readEntry i = some es[i]

/-! ## One command of the run -/

/-- Command i runs in s to a running state, and whatever completes the stream from there completes it from s. -/
def RunsOn (es : List Word) (i : Instr) (s : State) : Prop :=
  ∃ u, exec i s = .next u ∧ Running es u ∧ ∀ t, Completes es t u → Completes es t s

section

variable {es : List Word} {s : State}

theorem Running.next {i : Instr} {u : State} (h : Running es s) (hi : exec i s = .next u) (hb : u.busy = false)
    (hk : u.sink = s.sink) (hpal : u.palette = s.palette) (hpalK : u.palK = s.palK) : Running es u where
  inv := exec_keeps_inv h.inv hi
  busy := hb
  sink := hk.trans h.sink
  length := hpalK ▸ h.length
  palette := hpal ▸ h.palette

theorem Running.accepts (h : Running es s) (n : Nat) : s.sink.accepts n := accepts_of_accepting h.sink n

theorem Running.after (h : Running es s) (n : Nat) : s.sink.after n = s.sink := after_of_accepting h.sink n

/-- While a frame is due, the frames left begin with one (R157). -/
theorem exists_cons_of_due {datas : List (List Byte)} (h : s.Inv) (hp : s.phase = .frm ∨ s.phase = .data)
    (hlen : datas.length + s.framesDone.toNat = s.fcL.toNat) : ∃ d rest, datas = d :: rest := by
  have hdue := h.due hp
  exact List.exists_cons_of_length_pos (by omega)

/-- After the last frame no frame is left (R157). -/
theorem eq_nil_of_last {datas : List (List Byte)} (h : s.Inv) (hp : s.phase = .trl ∨ s.phase = .done)
    (hlen : datas.length + s.framesDone.toNat = s.fcL.toNat) : datas = [] := by
  rw [h.last hp] at hlen
  exact List.eq_nil_of_length_eq_zero (by omega)

theorem runsOn_nop (h : Running es s) : RunsOn es .nop s := ⟨s, exec_nop h.busy, h, fun _ => id⟩

theorem runsOn_header (h : Running es s) (hp : s.phase = .hdr) : RunsOn es .header s := by
  obtain ⟨h1, h8, -⟩ := h.inv.lengths (by simp [hp, Phase.streaming])
  obtain ⟨hf, hm⟩ := h.inv.fresh hp h.busy
  have hexec := exec_header_accepted h.busy hp h1 h8 rfl h.length h.palette hf (h.inv.index hf) hm (h.accepts _)
  refine ⟨_, hexec, h.next hexec h.busy (h.after _) rfl rfl, ?_⟩
  rintro t ⟨datas, hlen, hout, -⟩
  refine ⟨datas, hlen, ?_, fun hne => absurd hp hne⟩
  rw [hout]
  by_cases hmany : 1 < s.fcL.toNat <;> simp [streamRest, hp, hmany]

theorem runsOn_loopext (h : Running es s) (hp : s.phase = .loop) : RunsOn es .loopext s := by
  have hexec := exec_loopext_accepted h.busy hp (h.accepts _)
  refine ⟨_, hexec, h.next hexec h.busy (h.after _) rfl rfl, ?_⟩
  rintro t ⟨datas, hlen, hout, hhead⟩
  refine ⟨datas, hlen, ?_, fun _ => hhead (by simp)⟩
  rw [hout]
  simp [streamRest, hp]

theorem runsOn_frame (h : Running es s) (hp : s.phase = .frm) : RunsOn es .frame s := by
  have hexec := exec_frame_accepted h.busy hp (h.accepts _)
  refine ⟨_, hexec, h.next hexec h.busy (h.after _) rfl rfl, ?_⟩
  rintro t ⟨datas, hlen, hout, hhead⟩
  have hsame : frameStream s = frameStream t := hhead (by simp)
  obtain ⟨d, rest, rfl⟩ := exists_cons_of_due h.inv (.inl hp) hlen
  refine ⟨_, hlen, ?_, fun _ => hsame⟩
  rw [hout]
  simp [streamRest, hp, framesAndTrailer, State.held, hsame]

theorem runsOn_push (b : Byte) (h : Running es s) (hp : s.phase = .data) : RunsOn es (.push b) s := by
  have hfill := h.inv.fill (.inl h.busy) (by simp [hp])
  have hexec := exec_push_accepted (b := b) h.busy hp hfill (h.accepts _)
  refine ⟨_, hexec, h.next hexec h.busy (h.after _) rfl rfl, ?_⟩
  rintro t ⟨datas, hlen, hout, hhead⟩
  obtain ⟨d, rest, rfl⟩ := exists_cons_of_due h.inv (.inr hp) hlen
  have hphase : (s.pushed b).phase = .data := hp
  refine ⟨(b :: d) :: rest, hlen, ?_, fun _ => hhead (by simp [hphase])⟩
  simp only [streamRest, hp, hphase, List.headD_cons, List.tail_cons] at hout ⊢
  rw [hout, ← pushStream_append_imageData hfill]
  simp [State.pushed]

theorem runsOn_frameEnd (h : Running es s) (hp : s.phase = .data) : RunsOn es .frameEnd s := by
  have hdue := h.inv.due (.inr hp)
  have hexec := exec_frameEnd_accepted h.busy hp hdue (h.accepts _)
  refine ⟨_, hexec, h.next hexec h.busy (h.after _) rfl rfl, ?_⟩
  rintro t ⟨datas, hlen, hout, hhead⟩
  have hcount : (BitVec.ofNat 32 (s.framesDone.toNat + 1)).toNat = s.framesDone.toNat + 1 :=
    toNat_ofNat_of_lt (by have := s.fcL.isLt; omega)
  refine ⟨[] :: datas, ?_, ?_, fun _ => hhead (by dsimp only; split <;> simp)⟩
  · rw [List.length_cons]
    dsimp only at hlen
    omega
  · rw [hout]
    by_cases hmore : s.framesDone.toNat + 1 < s.fcL.toNat <;> simp [streamRest, hp, hmore, flushStream_eq]

theorem runsOn_trailer (h : Running es s) (hp : s.phase = .trl) : RunsOn es .trailer s := by
  have hexec := exec_trailer_accepted h.busy hp (h.accepts _)
  refine ⟨_, hexec, h.next hexec h.busy (h.after _) rfl rfl, ?_⟩
  rintro t ⟨datas, hlen, hout, hhead⟩
  refine ⟨datas, hlen, ?_, fun _ => hhead (by simp)⟩
  rw [hout, eq_nil_of_last h.inv (.inl hp) hlen]
  simp [streamRest, hp, framesAndTrailer]

/-- Every command but START and ABORT, legal in its phase, runs on. -/
theorem runsOn_of_legal {i : Instr} (h : Running es s) (hs : i ≠ .start) (ha : i ≠ .abort)
    (hl : legalIn i s.phase = true) : RunsOn es i s := by
  cases i with
  | nop => exact runsOn_nop h
  | start => exact absurd rfl hs
  | header => exact runsOn_header h (by simpa [legalIn] using hl)
  | loopext => exact runsOn_loopext h (by simpa [legalIn] using hl)
  | frame => exact runsOn_frame h (by simpa [legalIn] using hl)
  | push b => exact runsOn_push b h (by simpa [legalIn] using hl)
  | frameEnd => exact runsOn_frameEnd h (by simpa [legalIn] using hl)
  | trailer => exact runsOn_trailer h (by simpa [legalIn] using hl)
  | abort => exact absurd rfl ha

end

/-! ## The whole run -/

/-- A list of commands that answers a next state does so one command at a time. -/
theorem execAll_cons_cases {i : Instr} {is : List Instr} {s t : State} (h : execAll (i :: is) s = .next t) :
    ∃ u, exec i s = .next u ∧ execAll is u = .next t := by
  rw [execAll] at h
  split at h
  · exact ⟨_, ‹_›, h⟩
  · simp at h
  · simp at h

/-- Without ABORT no commands lead out of ERROR (R225). -/
theorem execAll_stays_in_error {is : List Instr} {s t : State} (hp : s.phase = .error) (ha : ∀ i ∈ is, i ≠ .abort)
    (h : execAll is s = .next t) : t.phase = .error := by
  induction is generalizing s with
  | nil => exact Host.Outcome.next.inj h ▸ hp
  | cons i is ih =>
    obtain ⟨u, hu, ht⟩ := execAll_cons_cases h
    exact ih (exec_stays_in_error hp hu (ha i List.mem_cons_self)) (fun j hj => ha j (List.mem_cons_of_mem i hj)) ht

/-- Commands without START and ABORT that end in DONE complete the stream they start in. -/
theorem execAll_completes {es : List Word} {is : List Instr} {s t : State} (h : Running es s)
    (his : ∀ i ∈ is, i ≠ .start ∧ i ≠ .abort) (hr : execAll is s = .next t) (ht : t.phase = .done) :
    Completes es t s := by
  induction is generalizing s with
  | nil =>
    obtain rfl := Host.Outcome.next.inj hr
    refine ⟨[], ?_, by simp [streamRest, ht], fun _ => rfl⟩
    rw [h.inv.last (.inr ht)]
    exact Nat.zero_add _
  | cons i is ih =>
    obtain ⟨u, hu, hrest⟩ := execAll_cons_cases hr
    obtain ⟨hs, ha⟩ := his i List.mem_cons_self
    have his' : ∀ j ∈ is, j ≠ .start ∧ j ≠ .abort := fun j hj => his j (List.mem_cons_of_mem i hj)
    have hne : u.phase ≠ .error := fun hp => by
      have herr := execAll_stays_in_error hp (fun j hj => (his' j hj).2) hrest
      simp [ht] at herr
    have hl : legalIn i s.phase = true := by
      by_contra hill
      have hp : s.phase ≠ .error := fun hp => hne (exec_stays_in_error hp hu ha)
      have hseq := exec_out_of_phase h.busy (Bool.eq_false_iff.2 hill) hp
      obtain rfl := Host.Outcome.next.inj (hseq.symm.trans hu)
      exact hne rfl
    obtain ⟨v, hv, hrun, hback⟩ := runsOn_of_legal h hs ha hl
    obtain rfl := Host.Outcome.next.inj (hv.symm.trans hu)
    exact hback t (ih hrun his' hrest)

/-- Settles O27: in HDR all of the stream is to come, and no frame is done. -/
theorem runToDoneIsOneStream : Obligations.RunToDoneIsOneStream := by
  intro s t es is hinv hb hp hk hlen hpal his hr ht
  obtain ⟨datas, hcount, hout, -⟩ := execAll_completes ⟨hinv, hb, hk, hlen, hpal⟩ his hr ht
  rw [hinv.notBegun (.inl hp)] at hcount
  refine ⟨datas, hcount, ?_⟩
  simpa [streamRest, hp, framesAndTrailer] using hout

end Sys2Proof.Machine
end

section
/-! PROOF. Errors (60_exceptions.md R220 to R225): how a command comes into ERROR and what it has changed by then, what
ERROR ignores and what it still stores, and the two moves that lead out of it. -/

namespace Sys2Proof.Machine

/-! ## Error entry -/

/-- Error entry while BUSY = 0 changes ERR and PHASE only (R222). -/
theorem State.enterError_of_idle {s : State} (hb : s.busy = false) (c : ErrKind) :
    s.enterError c = { s with err := c, phase := .error } := by
  simp [State.enterError, hb]

/-- Steps that are done in full do not lead into ERROR unless one of them says so. -/
theorem applyAll_phase_ne_error {steps : List CmdStep} {s : State} (hs : .setPhase .error ∉ steps)
    (hp : s.phase ≠ .error) : (applyAll steps s).phase ≠ .error := by
  induction steps generalizing s with
  | nil => exact hp
  | cons c steps ih =>
    rw [List.mem_cons, not_or] at hs
    obtain ⟨hc, hs⟩ := hs
    refine ih hs ?_
    cases c with
    | setPhase p => exact fun h => hc (congrArg CmdStep.setPhase h.symm)
    | endFrame =>
      simp only [CmdStep.apply, State.countFrame_phase]
      split <;> simp
    | _ => exact hp

/-- A run that ends in ERROR, where no step of it says so, has met a byte the sink failed (R66, R220). -/
theorem runSteps_writeFailure {steps : List CmdStep} {s t : State} (h : runSteps steps s = .next t)
    (hs : .setPhase .error ∉ steps) (hp : s.phase ≠ .error) (ht : t.phase = .error) : t.err = .writeFailure := by
  obtain ⟨first, rest, rfl, hend⟩ := runSteps_cases h
  rw [List.mem_append, not_or] at hs
  have hfirst : (applyAll first s).phase ≠ .error := applyAll_phase_ne_error hs.1 hp
  obtain ⟨-, rfl⟩ | ⟨b, tl, -, -, rfl⟩ | ⟨b, tl, -, -, rfl⟩ := hend
  · exact absurd ht hfirst
  · exact absurd ht hfirst
  · rfl

theorem setPhase_error_not_mem_headerSteps (s : State) : .setPhase .error ∉ headerSteps s := by
  intro h
  have hnext := setPhase_mem_headerSteps h
  obtain hp | hp := State.phaseAfterHeader_eq s <;> simp [hp] at hnext

/-- The three ways a command comes into ERROR: a byte the sink failed, a phase outside the command's row, or a check
of START (R200, R220). -/
theorem exec_enters_error {i : Instr} {s t : State} (h : exec i s = .next t) (he : s.phase ≠ .error)
    (ht : t.phase = .error) : t.err = .writeFailure ∨ t = s.enterError .sequenceError ∨
      (i = .start ∧ ∃ c, startCheck s = some c ∧ t = s.enterError c) := by
  obtain ⟨-, hcases⟩ := exec_cases h
  obtain ⟨-, rfl⟩ | ⟨herr, -⟩ | ⟨-, -, rfl⟩ | ⟨-, rfl⟩ | ⟨rfl, -, hstart | ⟨-, rfl⟩⟩ | ⟨-, -, hr⟩ | ⟨-, -, hr⟩ |
    ⟨-, -, hr⟩ | ⟨b, -, -, hr⟩ | ⟨-, -, hr⟩ | ⟨-, -, hr⟩ := hcases
  · exact absurd ht he
  · exact absurd herr he
  · exact .inr (.inl rfl)
  · simp at ht
  · exact .inr (.inr ⟨rfl, hstart⟩)
  · simp at ht
  · exact .inl (runSteps_writeFailure hr (setPhase_error_not_mem_headerSteps s) he ht)
  · exact .inl (runSteps_writeFailure hr (by simp [loopextSteps, setPhase_not_mem_emits]) he ht)
  · exact .inl (runSteps_writeFailure hr (by simp [frameSteps, setPhase_not_mem_emits]) he ht)
  · exact .inl (runSteps_writeFailure hr (setPhase_not_mem_pushSteps _ _) he ht)
  · exact .inl (runSteps_writeFailure hr (setPhase_not_mem_frameEndSteps s _) he ht)
  · exact .inl (runSteps_writeFailure hr (by simp [trailerSteps]) he ht)

/-- Settles O10, by the three ways into ERROR. -/
theorem errorsOtherThanWriteFailureAreAtomic : Obligations.ErrorsOtherThanWriteFailureAreAtomic := by
  intro i s t he hb h ht
  obtain hfail | rfl | ⟨rfl, c, hc, rfl⟩ := exec_enters_error h he ht
  · exact .inl hfail
  · exact .inr ⟨State.enterError_of_idle hb _, .inl rfl⟩
  · exact .inr ⟨State.enterError_of_idle hb c, .inr ⟨rfl, startCheck_ne hc⟩⟩

/-! ## While in ERROR -/

/-- Settles O7: the commands and words ERROR ignores, and the register writes, which do not look at PHASE. -/
theorem errorPhaseIgnoresCommands : Obligations.ErrorPhaseIgnoresCommands := by
  refine ⟨fun i s hb hp hn ha => exec_ignored hb hp hn ha, fun s w rest hb hp h0 h8 h => ?_, fun s v rest hb _ => ?_⟩
  · exact (step_cmd h).trans (issueWord_ignored (by exact hb) (by exact hp) h0 h8)
  · have hstore (r : Reg) (hr : r ≠ .cmd) (h : s.agenda = .access (.write r.offset .bits32 v) :: rest) :
        step s = .next (writeReg (s.withAgenda rest) r v) := step_write_reg hb hr h
    refine ⟨hstore .frameCount (by simp), hstore .delayCount (by simp), hstore .loopCount (by simp),
      hstore .palLen (by simp), hstore .frameMin (by simp), hstore .frameMax (by simp), fun h => ?_, fun i h => ?_⟩
    · have hlow : lowHalf v = BitVec.ofNat 16 v.toNat := by simpa using lowHalf_ofNat v.toNat
      rw [← hlow]
      exact hstore .delay (by simp) h
    · obtain ⟨m, hstep, hread, -⟩ := paletteWriteStoresOneEntry s i v rest hb h
      exact ⟨m, hstep, hread⟩

/-! ## Leaving ERROR -/

/-- In ERROR no command waits (R222). -/
theorem State.Inv.idle_of_error {s : State} (h : s.Inv) (hp : s.phase = .error) : s.busy = false := by
  by_contra hb
  rw [Bool.not_eq_false] at hb
  exact h.busyPending.1 hb ((pendingFits_quiet (.inr (.inr hp))).1 (h.pendingFits hb))

/-- A CMD write in ERROR does nothing, or its word is ABORT's (R224, R225). -/
theorem issueWord_in_error {w : Word} {s t : State} (hb : s.busy = false) (hp : s.phase = .error)
    (h : issueWord w s = .next t) : t = s ∨ (w = 0x00000008 ∧ t = s.abandon) := by
  by_cases h8 : w = 8
  · subst h8
    have habort : issueWord 8 s = exec .abort s := issueWord_eq_exec (decode_encode .abort) s
    rw [habort, exec_abort hb] at h
    exact .inr ⟨rfl, (Host.Outcome.next.inj h).symm⟩
  · have hstay : issueWord w s = .next s := by
      by_cases h0 : w = 0
      · subst h0
        exact (issueWord_eq_exec (decode_encode .nop) s).trans (exec_nop hb)
      · exact issueWord_ignored hb hp h0 h8
    exact .inl (Host.Outcome.next.inj (hstay.symm.trans h)).symm

/-- A CMD access on the bus is the 32-bit one at offset 0x000 (R33, R61). -/
theorem cmd_access_eq {off : Offset} {w : Width} (hbus : onBus off w = true) (hr : regAt off = some .cmd) :
    off = 0x000 ∧ w = .bits32 := by
  refine ⟨eq_zero_of_regAt_cmd hr, ?_⟩
  cases w with
  | bits32 => rfl
  | _ => simp [onBus] at hbus

/-- A host write in ERROR keeps PHASE and ERR, or it is the write of ABORT's word to CMD (R224, R225). -/
theorem busWrite_in_error {off : Offset} {w : Width} {v : Word} {s t : State} (hp : s.phase = .error)
    (h : busWrite off w v s = .next t) : (t.phase = s.phase ∧ t.err = s.err) ∨
      (off = 0x000 ∧ w = .bits32 ∧ v = 0x00000008 ∧ t = s.abandon) := by
  obtain ⟨hbus, hb, ⟨-, rfl⟩ | ⟨hr, hissue⟩ | ⟨r, -, -, rfl⟩⟩ := busWrite_cases h
  · exact .inl ⟨rfl, rfl⟩
  · obtain ⟨rfl, rfl⟩ := cmd_access_eq hbus hr
    obtain rfl | ⟨rfl, rfl⟩ := issueWord_in_error hb hp hissue
    · exact .inl ⟨rfl, rfl⟩
    · exact .inr ⟨rfl, rfl, rfl, rfl⟩
  · rw [writeReg_eq]
    exact .inl ⟨rfl, rfl⟩

/-- Settles O8, by the next move: with no command waiting the block's turns do nothing, reads and the host's looks change
only the host's side, and a host write is `busWrite_in_error`. -/
theorem onlyAbortAndResetLeaveError : Obligations.OnlyAbortAndResetLeaveError := by
  intro s t hinv hp h
  have hb : s.busy = false := hinv.idle_of_error hp
  have hturn (l : List Move) (hr : blockTurn (s.withAgenda l) = .next t) : t.phase = .error ∧ t.err = s.err := by
    rw [blockTurn_idle (by exact hb)] at hr
    obtain rfl := Host.Outcome.next.inj hr
    exact ⟨hp, rfl⟩
  obtain ⟨-, hr⟩ | ⟨off, w, rest, -, hr⟩ | ⟨off, w, v, rest, ha, hr⟩ | ⟨rest, -, hr⟩ | ⟨rest, -, hr⟩ | ⟨rest, ha, rfl⟩ |
    ⟨rest, -, rfl⟩ | ⟨c, rest, -, rfl⟩ | ⟨rest, -, rfl⟩ := step_cases h
  · exact .inl (hturn s.agenda hr)
  · obtain ⟨-, v, rfl⟩ := busRead_cases hr
    exact .inl ⟨hp, rfl⟩
  · obtain ⟨hphase, herr⟩ | ⟨rfl, rfl, rfl, rfl⟩ := busWrite_in_error (s := s.withAgenda rest) hp hr
    · exact .inl ⟨hphase.trans hp, herr⟩
    · exact .inr ⟨rfl, rfl, rest, .inl ha⟩
  · obtain ⟨hbusy, -⟩ | ⟨-, rfl⟩ := waitPoll_cases hr
    · simp [hb] at hbusy
    · exact .inl ⟨hp, rfl⟩
  · exact .inl (hturn rest hr)
  · exact .inr ⟨rfl, rfl, rest, .inr ha⟩
  all_goals exact .inl ⟨hp, rfl⟩

end Sys2Proof.Machine
end

section
/-! PROOF. Stalls without end, the busy hazard and reset (70_reset_and_hazards.md R250, R251, R261, R262): while the sink only
stalls a turn of the block changes nothing, a host write on the bus is the busy hazard, and a reset step is `afterReset`. -/

namespace Sys2Proof.Machine

/-! ## A sink that stalls for ever -/

/-- A sink without listed answers is the same once it has answered. -/
theorem Sink.after_of_script_nil {k : Sink} (h : k.script = []) (n : Nat) : k.after n = k := by
  cases k
  simp_all [Sink.after]

/-- A turn of the block offers the byte again, and a sink that only stalls leaves everything as it was (R66, R262). -/
theorem blockTurn_stalled {s : State} {b : Byte} {rest : List CmdStep} (hb : s.busy = true)
    (hp : s.pending = .emit b :: rest) (hk : s.sink = { script := [], rest := .stall }) : blockTurn s = .next s := by
  have hstall : blockTurn s = .next { s with sink := s.sink.after 1 } :=
    (offeredByteIsAnswered s b rest hb hp).2.1 (by rw [hk]; rfl)
  have hsame : s.sink.after 1 = s.sink := Sink.after_of_script_nil (by rw [hk]) 1
  rw [hstall, hsame]

/-- Settles O32, by the next move: the block's turns are `blockTurn_stalled`, a host write is not taken while BUSY = 1, and
reads and the host's looks change only the host's side. -/
theorem stalledSinkKeepsBusy : Obligations.StalledSinkKeepsBusy := by
  intro s t b rest hb hp hk hreset h
  have hturn (u : State) (hbu : u.busy = true) (hpu : u.pending = .emit b :: rest)
      (hku : u.sink = { script := [], rest := .stall }) (hr : blockTurn u = .next t) : t = u :=
    Host.Outcome.next.inj (hr.symm.trans (blockTurn_stalled hbu hpu hku))
  obtain ⟨-, hr⟩ | ⟨off, w, moves, -, hr⟩ | ⟨off, w, v, moves, -, hr⟩ | ⟨moves, -, hr⟩ | ⟨moves, -, hr⟩ | ⟨moves, ha, -⟩ |
    ⟨moves, -, rfl⟩ | ⟨c, moves, -, rfl⟩ | ⟨moves, -, rfl⟩ := step_cases h
  · obtain rfl := hturn s hb hp hk hr
    exact ⟨hb, rfl, rfl, rfl, rfl⟩
  · obtain ⟨-, v, rfl⟩ := busRead_cases hr
    exact ⟨hb, rfl, rfl, rfl, rfl⟩
  · obtain ⟨-, hidle, -⟩ := busWrite_cases hr
    simp [hb] at hidle
  · obtain ⟨-, hr⟩ | ⟨hidle, -⟩ := waitPoll_cases hr
    · obtain rfl := hturn (s.returnWord s.statusWord) hb hp hk hr
      exact ⟨hb, rfl, rfl, rfl, rfl⟩
    · simp [hb] at hidle
  · obtain rfl := hturn (s.withAgenda moves) hb hp hk hr
    exact ⟨hb, rfl, rfl, rfl, rfl⟩
  · exact absurd ha (hreset moves)
  all_goals exact ⟨hb, rfl, rfl, rfl, rfl⟩

/-! ## The busy hazard -/

/-- A 32-bit write at a multiple of 4 is the busy hazard while BUSY = 1, whatever the offset (R61, R261). -/
theorem step_write_busy {s : State} {off : Offset} {v : Word} {rest : List Move} (hb : s.busy = true)
    (ha : off.toNat % 4 = 0) (h : s.agenda = .access (.write off .bits32 v) :: rest) : step s = .fault .hazard := by
  simp [step_write h, busWrite, onBus_aligned ha, hb]

/-- Settles O6: commands and writes are the hazard, and a read of STATUS does not look at BUSY. -/
theorem busyBlockFaultsOnWrites : Obligations.BusyBlockFaultsOnWrites :=
  ⟨fun i _ hb => exec_busy i hb, fun _ _ _ _ hb ha h => step_write_busy hb ha h,
    fun _ _ _ h => step_read_reg (r := .status) h rfl rfl rfl⟩

/-! ## Reset -/

theorem step_reset {s : State} {rest : List Move} (h : s.agenda = .reset :: rest) :
    step s = .next (s.withAgenda rest).afterReset := by
  simp [step, nextMove, h]

/-- Settles O47, field by field: the block's fields are those of the reset state, in whose palette no byte is listed, and
the fields outside the block are the old ones. -/
theorem resetStopsCommandAndKeepsOutput : Obligations.ResetStopsCommandAndKeepsOutput := by
  intro s rest h
  have hpalette (i : Nat) : State.reset.palette.readEntry i = none := rfl
  refine ⟨(s.withAgenda rest).afterReset, step_reset h, ?_⟩
  simp only [State.afterReset_palette, hpalette]
  simp [State.reset]

end Sys2Proof.Machine
end
